-- ==== Sys2Proof/Word.lean ====
section
/-! DEFINITION. The bit vectors the manual treats as bits: bytes of the command port, 16-bit words of the field loop and of
the capture ring, and values of the 48-bit time base (introduction, section 6.3). -/

namespace Sys2Proof

/-- One byte of the command port. -/
abbrev Byte := BitVec 8

/-- One 16-bit word: a slot, a service word, a word of the capture ring. -/
abbrev Word := BitVec 16

/-- A value of the time base, a 48-bit count of microseconds (introduction, section 6.3). -/
abbrev Time := BitVec 48

/-- A loop rate code (Table 1-1). -/
abbrev Rate := Fin 4

/-- A channel number, an output number, a well number, a scaling point, a solubility curve (introduction, section 6.5). -/
abbrev ChannelNo := Fin 96
abbrev OutputNo := Fin 64
abbrev WellNo := Fin 16
abbrev PointNo := Fin 8
abbrev CurveNo := Fin 4

end Sys2Proof
end

