-- ==== Sys2Proof/Syntax.lean ====
section
/-! DEFINITION. The commands: one constructor per row of spec/opcode_table.json, with the data that reaches the part with it. -/

namespace Sys2Proof

/-- What a good request frame of a known kind carries beside its kind: the host's tag and the payload (Table 11-2). -/
structure Request where
  tag : Word
  payload : List Byte
  deriving DecidableEq, Repr

/-- The four words that the three tests of a candidate at bit position p read (R5): the service word at p+464, the 16 bits at
p+480, the service word at p+944, the 16 bits at p+960. -/
structure CandidateWords where
  service0 : Word
  align1 : Word
  service1 : Word
  align2 : Word
  deriving DecidableEq, Repr

/-- The 30 words of a field loop frame (Table 1-2). -/
structure LoopFrame where
  align : Word
  slots : Vector Word 28
  service : Word
  deriving DecidableEq, Repr

/-- A permissive step that has a hold timer (Table 6-4). -/
inductive HoldStep where
  | s2 | s3 | s4
  deriving DecidableEq, Repr

/-- The commands and events of the part, one per row of the table. -/
inductive Instr where
  | ident (r : Request)
  | status (r : Request)
  | statusClear (r : Request)
  | setModeConfig (r : Request)
  | setModeStandby (r : Request)
  | setModeSupervise (r : Request)
  | restart (r : Request)
  | restartEffect
  | tableWrite (r : Request)
  | tableWriteWell (r : Request)
  | tableWriteClass (r : Request)
  | tableWriteTiming (r : Request)
  | tableWriteCapture (r : Request)
  | tableRead (r : Request)
  | stage (r : Request)
  | publish (r : Request)
  | readBank (r : Request)
  | resume (r : Request)
  | wellCmdStart (r : Request)
  | wellCmdStop (r : Request)
  | wellCmdClear (r : Request)
  | wellCmdServiceOut (r : Request)
  | wellCmdServiceIn (r : Request)
  | wellCmdHold (r : Request)
  | wellCmdRelease (r : Request)
  | readWells (r : Request)
  | turbineCmdTrip (r : Request)
  | turbineCmdReset (r : Request)
  | turbineCmdRelease (r : Request)
  | readTurbine (r : Request)
  | outputCmdServiceOut (r : Request)
  | outputCmdServiceIn (r : Request)
  | readOutputs (r : Request)
  | force (r : Request)
  | unforce (r : Request)
  | trim (r : Request)
  | readChannels (r : Request)
  | setLab (r : Request)
  | ackAlarm (r : Request)
  | readScale (r : Request)
  | readHeat (r : Request)
  | clearEnergy (r : Request)
  | readLoop (r : Request)
  | readLoopClear (r : Request)
  | fetchEvents (r : Request)
  | captureCmdStart (r : Request)
  | captureCmdStop (r : Request)
  | captureCmdRearm (r : Request)
  | readCapture (r : Request)
  | timeSet (r : Request)
  | timeSyncA (r : Request)
  | timeSyncB (r : Request)
  /-- A good frame whose kind is not in Table 11-4. -/
  | unknownKind (kind : Byte) (r : Request)
  /-- A good frame that completes while the buffer is full. -/
  | frameOverrunDiscard (kind : Byte) (r : Request)
  /-- A completed frame with the two CRC bytes it carried. -/
  | crcMismatchDiscard (kind : Byte) (r : Request) (crc : Word)
  /-- A byte that arrives; taken in LENGTH it is LEN, and a bad one discards the frame (log 31). -/
  | badLenDiscard (len : Byte)
  | framingErrorAbandon
  | gapAbandon
  | replySent
  | resetPinLow
  /-- RST_N going high, with RATE1 and RATE0 as they stand. -/
  | powerOnReset (straps : BitVec 2)
  /-- A run of 16 received bits, the last of which arrives now, and the position of its first, counted from the first bit the hunt
  looks at. -/
  | candidateMatch (position : Nat) (bits : Word)
  | candidateConfirm (words : CandidateWords)
  | candidateFail (words : CandidateWords)
  | huntIntervalExpiry
  | searchDwellExpiry
  | frameJudge (frame : LoopFrame)
  | lineSilenceTimeout
  | blindTimerExpiry
  | outboundScanStart
  | outboundFrameStart
  | mbcProcessSnapshot
  | hostTimerExpiry
  | wsvProcessSnapshot
  | startTimerExpiry (well : WellNo)
  | staggerTimerExpiry
  | tgdProcessSnapshot
  | permissiveHoldExpiry (step : HoldStep)
  | hxuProcessSnapshot
  | scmProcessSnapshot
  | capProcessSnapshot
  | clockAdvance
  deriving DecidableEq, Repr

end Sys2Proof
end

