-- ==== Sys2Proof/Decode.lean ====
section
/-! DEFINITION. The command that a word spells by the opcode table's bits. No row of spec/opcode_table.json gives bits
(spec/98_reader.md: n_rows_with_fixed 0, n_rows_with_fields 0), so no word spells a command; a command comes to run by standing
in the queue (log 33). -/

namespace Sys2Proof

/-- None of the table's rows gives bits: every word is refused. -/
def decodeTableWord (_nbits _w : Nat) : Option Instr := none

end Sys2Proof
end

