-- ==== Sys2Proof/Machine/Bytes.lean ====
section
/-! DEFINITION. Byte order, fields of frames, the two cyclic checks, and the rounding rules. Multi-byte values on the command
port are sent high byte first (introduction, section 6.5). -/

namespace Sys2Proof.Machine

/-! ## Writing values high byte first -/

/-- One byte holding the low 8 bits of a number. -/
def put8 (x : Int) : List Byte := [BitVec.ofInt 8 x]

/-- Two bytes, high byte first, holding the low 16 bits of a number. -/
def put16 (x : Int) : List Byte :=
  let w := BitVec.ofInt 16 x
  [w.extractLsb' 8 8, w.extractLsb' 0 8]

/-- Four bytes, high byte first, holding the low 32 bits of a number. -/
def put32 (x : Int) : List Byte :=
  let w := BitVec.ofInt 32 x
  [w.extractLsb' 24 8, w.extractLsb' 16 8, w.extractLsb' 8 8, w.extractLsb' 0 8]

/-- Six bytes, high byte first, holding a value of the time base. -/
def putTime (t : Time) : List Byte :=
  [t.extractLsb' 40 8, t.extractLsb' 32 8, t.extractLsb' 24 8, t.extractLsb' 16 8, t.extractLsb' 8 8, t.extractLsb' 0 8]

/-- A flag as a number. -/
def bit (b : Bool) : Int := if b then 1 else 0

/-- A byte made of flags, bit 0 first. -/
def flagByte : List Bool → Int
  | [] => 0
  | b :: bs => bit b + 2 * flagByte bs

/-! ## Reading values high byte first, from byte i of a record -/

/-- Byte i. -/
def byteAt (b : List Byte) (i : Nat) : Byte := b.getD i 0

/-- Byte i as a number. -/
def u8 (b : List Byte) (i : Nat) : Int := (byteAt b i).toNat

/-- Bytes i and i+1, unsigned. -/
def u16 (b : List Byte) (i : Nat) : Int := ((byteAt b i ++ byteAt b (i + 1) : BitVec 16)).toNat

/-- Bytes i and i+1, signed. -/
def s16 (b : List Byte) (i : Nat) : Int := ((byteAt b i ++ byteAt b (i + 1) : BitVec 16)).toInt

/-- Bytes i to i+3 as 32 bits. -/
def word32 (b : List Byte) (i : Nat) : BitVec 32 :=
  byteAt b i ++ byteAt b (i + 1) ++ byteAt b (i + 2) ++ byteAt b (i + 3)

/-- Bytes i to i+3, unsigned. -/
def u32 (b : List Byte) (i : Nat) : Int := (word32 b i).toNat

/-- Bytes i to i+3, signed. -/
def s32 (b : List Byte) (i : Nat) : Int := (word32 b i).toInt

/-! ## Rounding (introduction, section 6.2); every divisor in the manual's divisions is positive -/

/-- Division to the nearest integer, halves away from zero. -/
def roundDiv (a b : Int) : Int :=
  if 0 ≤ a then (2 * a + b) / (2 * b) else -((2 * -a + b) / (2 * b))

/-- Division rounding down. -/
def floorDiv (a b : Int) : Int := a / b

/-- Division rounding up. -/
def ceilDiv (a b : Int) : Int := -(-a / b)

/-- A value brought into a range. -/
def clamp (lo hi x : Int) : Int := if x < lo then lo else if hi < x then hi else x

/-- Whether a value lies in a range. -/
def within (lo hi x : Int) : Bool := decide (lo ≤ x ∧ x ≤ hi)

/-! ## The cyclic checks -/

/-- One bit of the CRC-8 of R2, generator x^8+x^2+x+1. -/
def crc8Bit (reg : BitVec 8) : BitVec 8 :=
  if reg.msb then (reg <<< 1) ^^^ 0x07#8 else reg <<< 1

/-- One byte of the CRC-8 of R2, most significant bit first. -/
def crc8Byte (reg : BitVec 8) (b : Byte) : BitVec 8 :=
  crc8Bit (crc8Bit (crc8Bit (crc8Bit (crc8Bit (crc8Bit (crc8Bit (crc8Bit (reg ^^^ b))))))))

/-- The check byte over bytes in transmission order (R2). -/
def crc8 (bs : List Byte) : BitVec 8 := bs.foldl crc8Byte 0x00#8

/-- The bytes of words sent most significant bit first. -/
def wordBytes (ws : List Word) : List Byte :=
  ws.flatMap fun w => [w.extractLsb' 8 8, w.extractLsb' 0 8]

/-- The check byte of the 28 slots of a loop frame (R2). -/
def checkByte (slots : Vector Word 28) : BitVec 8 := crc8 (wordBytes slots.toList)

/-- One bit of the CRC of R172, generator x^16+x^12+x^5+1. -/
def crc16Bit (reg : Word) : Word :=
  if reg.msb then (reg <<< 1) ^^^ 0x1021#16 else reg <<< 1

/-- One byte of the CRC of R172, most significant bit first. -/
def crc16Byte (reg : Word) (b : Byte) : Word :=
  crc16Bit (crc16Bit (crc16Bit (crc16Bit (crc16Bit (crc16Bit (crc16Bit (crc16Bit (reg ^^^ (b ++ 0x00#8)))))))))

/-- The CRC over bytes in the order they are sent (R172). -/
def crc16 (bs : List Byte) : Word := bs.foldl crc16Byte 0xFFFF#16

/-! ## Fields of the service word (Table 1-3) -/

/-- Bits 15..13: the frame index as sent, 0..7. -/
def serviceIndex (w : Word) : Nat := (w.extractLsb' 13 3).toNat

/-- Bit 12, the remote alarm. -/
def serviceRemote (w : Word) : Bool := w.getLsbD 12

/-- Bit 11, the station fault. -/
def serviceStation (w : Word) : Bool := w.getLsbD 11

/-- Bits 7..0, the check byte. -/
def serviceCheck (w : Word) : BitVec 8 := w.extractLsb' 0 8

/-- A frame index 0..5 as such; 6 and 7 are invalid (Table 1-3). -/
def validIndex (n : Nat) : Option (Fin 6) := if h : n < 6 then some ⟨n, h⟩ else none

/-- The index plus one, modulo 6. -/
def nextIndex (i : Fin 6) : Fin 6 := if h : i.val + 1 < 6 then ⟨i.val + 1, h⟩ else 0

/-- The outbound service word: index, bit 12, bit 11, bits 10..8 zero, check byte (Table 1-3). -/
def serviceWord (i : Fin 6) (bit12 bit11 : Bool) (check : BitVec 8) : Word :=
  BitVec.ofNat 3 i.val ++ BitVec.ofBool bit12 ++ BitVec.ofBool bit11 ++ 0#3 ++ check

/-- The inbound alignment word (Table 1-2). -/
def inboundAlign : Word := 0xB74C#16

/-- The outbound alignment word (Table 1-2). -/
def outboundAlign : Word := 0x58E3#16

/-- The hold code (introduction, section 6.4). -/
def holdCode : Word := 0x8000#16

/-- The three tests of R5 on a candidate: the noted index when all pass. -/
def CandidateWords.index (c : CandidateWords) : Option (Fin 6) :=
  match validIndex (serviceIndex c.service0) with
  | none => none
  | some i =>
    if c.align1 = inboundAlign ∧ serviceIndex c.service1 = (nextIndex i).val ∧ c.align2 = inboundAlign then some i else none

/-! ## Bits on the loop (R1) -/

/-- The 16 bits of a word in the order in which they are sent, most significant first (R1). -/
def bitsSent (w : Word) : List Bool := (List.range 16).map w.getMsbD

/-- The 30 words of a frame in the order in which they are sent (Table 1-2). -/
def frameWords (f : LoopFrame) : List Word := f.align :: f.slots.toList ++ [f.service]

/-- The 480 bits of a frame in the order in which they are sent (R1). -/
def frameBits (f : LoopFrame) : List Bool := (frameWords f).flatMap bitsSent

/-- The place of the last bit that differs from the one before it, where `level` stands before the first. -/
def lastChange (level : Bool) : List Bool → Option Nat
  | [] => none
  | b :: bs =>
    match lastChange b bs with
    | some n => some (n + 1)
    | none => if b = level then none else some 0

/-- The place of the first bit that differs from the level before the bits. -/
def firstChange (level : Bool) (bits : List Bool) : Option Nat := bits.findIdx? fun b => b != level

/-! ## Bits on the command port (R170) -/

/-- Bits per second of a strap code (Table 11-1). -/
def portRate (straps : BitVec 2) : Nat := 57600 * 2 ^ straps.toNat

/-- The time of ten bits in whole microseconds, rounded down: a start bit, eight data bits, a stop bit (R170; the start bit:
log 40). -/
def byteUs (straps : BitVec 2) : Nat := 10000000 / portRate straps

/-- The time of a number of bytes with no gaps, rounded up to a whole microsecond (R173). -/
def bytesUs (straps : BitVec 2) (n : Nat) : Nat := (10000000 * n + portRate straps - 1) / portRate straps

/-- The first whole microsecond after the end of a byte at which a byte that began more than 2 ms after it can end (R171). -/
def gapUs (straps : BitVec 2) : Nat := 2000 + byteUs straps + 1

/-- The ten bits of a byte as they stand on the line: the start bit 0, the data bits, least significant first, the stop bit 1
(R170; the start bit: log 40). -/
def byteBits (b : Byte) : List Bool := false :: (List.range 8).map b.getLsbD ++ [true]

/-- The byte of eight data bits, least significant first (R170). -/
def byteOfBits (bits : List Bool) : Byte := (BitVec.ofBoolListLE bits).setWidth 8

/-- What a line gives the receiver: a byte, or a byte with a framing error (R170). -/
inductive PortByte where
  | good (b : Byte)
  | framingError
  deriving DecidableEq, Repr

/-- A serial line as it is read, one level for each bit time (log 40): at rest, within a byte with the data bits taken so far, or
at 0 since a byte with a framing error (R170). -/
inductive LineRx where
  | idle
  | data (bits : List Bool)
  | low
  deriving DecidableEq, Repr

/-- One level of the line (R170): a 0 begins a byte; a stop bit of 0 makes it a byte with a framing error, and no byte follows
until the line has returned to 1. -/
def LineRx.take : LineRx → Bool → LineRx × Option PortByte
  | .idle, level => (if level then .idle else .data [], none)
  | .low, level => (if level then .idle else .low, none)
  | .data bits, level =>
    if bits.length < 8 then (.data (bits ++ [level]), none)
    else if level then (.idle, some (.good (byteOfBits bits)))
    else (.low, some .framingError)

/-- The bytes that the levels of a line spell (R170). -/
def LineRx.bytes : LineRx → List Bool → List PortByte
  | _, [] => []
  | l, level :: levels => (l.take level).2.toList ++ LineRx.bytes (l.take level).1 levels

/-! ## Request frames (Table 11-2, Table 11-4) -/

/-- The body of a request frame: kind, tag, payload. -/
def requestBody (kind : Byte) (r : Request) : List Byte :=
  [kind, r.tag.extractLsb' 8 8, r.tag.extractLsb' 0 8] ++ r.payload

/-- The CRC that a request frame must carry: over the LEN byte and the body (R171, R172). -/
def requestCrc (kind : Byte) (r : Request) : Word :=
  let body := requestBody kind r
  crc16 (BitVec.ofNat 8 body.length :: body)

/-- The bytes of a frame as they arrive on RXD: 0xC3, LEN, the body, and two CRC bytes, high byte first (Table 11-2, R172). -/
def requestBytes (kind : Byte) (r : Request) (crc : Word) : List Byte :=
  let body := requestBody kind r
  0xC3#8 :: BitVec.ofNat 8 body.length :: body ++ [crc.extractLsb' 8 8, crc.extractLsb' 0 8]

/-- A LEN that the receiver takes (R171). -/
def goodLen (len : Byte) : Bool := decide (3 ≤ len.toNat ∧ len.toNat ≤ 250)

/-- The kinds of Table 11-4 are 0x01 to 0x1F; a kind with bit 7 set is unknown (R174). -/
def knownKind (kind : Byte) : Bool := decide (1 ≤ kind.toNat ∧ kind.toNat ≤ 0x1F)

end Sys2Proof.Machine
end

