-- ==== Sys2Proof/Config.lean ====
section
/-! DEFINITION. The free values: what the manual leaves open and no proof may know. Each is applied to the plain counter
`free` of State, which every use advances. -/

namespace Sys2Proof.Config

/-- The snapshot interval when the stamps differ by 2^32 microseconds or more: R24 holds the interval "as a 32-bit count" and
places no bound on the difference, so no result is stated there (log 6). -/
opaque interval : Nat → BitVec 32

/-- Which of two blocks that raise events at one moment is first in the queue: R158, "Events raised at one moment by different
blocks may enter the queue in either order" (log 7). -/
opaque firstBlockFirst : Nat → Bool

/-- How long after a request the first bit of its reply stands on TXD, in microseconds, where it lies within the 1 ms of R173: "Any
start within that bound is correct behaviour, and the moment within it is not fixed" (log 21). -/
opaque replyStart : Nat → Nat

end Sys2Proof.Config
end

