-- ==== Sys2Proof/Machine/State.lean ====
section
/-! DEFINITION. The state of the part, block by block (Table 0-1), every field plain data, and the state after reset. Plant
quantities are exact integers in the units of Table 0-2; the tables say their ranges. -/

namespace Sys2Proof.Machine

/-! ## Values shared by the blocks -/

/-- Operating modes (R53). -/
inductive Mode where
  | config | standby | supervise | leaving
  deriving DecidableEq, Repr

/-- Link states (R68, R70). -/
inductive Link where
  | linked | silent
  deriving DecidableEq, Repr

/-- A running timer on the time base: when it began and how many microseconds it runs (introduction, section 6.3). -/
structure Timer where
  start : Time
  duration : Nat
  deriving DecidableEq, Repr

/-- A position of the loop: frame 0..5, slot 0..27 (section 1.1). -/
structure Position where
  frame : Fin 6
  slot : Fin 28
  deriving DecidableEq, Repr

/-! ## LIF, the loop interface (chapter 1) -/

/-- The LOOP record (R3). -/
structure LoopRecord where
  rate : Rate
  autoRate : Bool
  lossCount : Nat
  counterWidth : Nat
  blindMs : Nat
  deriving DecidableEq, Repr

/-- Receive states (section 1.3). -/
inductive RxState where
  | off | search | hunt | framed | locked
  deriving DecidableEq, Repr

/-- An error counter with its full mark (R15). -/
structure ErrorCounter where
  count : Nat
  full : Bool
  deriving DecidableEq, Repr

/-- The transmitter (R19, R20). `timer` runs to the next frame start and is absent while the transmitter is stopped; `next` is
the index of that frame, absent when a scan start is due first; `line` is the frame last begun, absent while the line idles. -/
structure Transmitter where
  timer : Option Timer
  rate : Rate
  next : Option (Fin 6)
  slots : Vector Word 168
  bit11 : Bool
  line : Option LoopFrame
  deriving DecidableEq, Repr

/-- The scan buffer: the word of each position marked taken, absent where the mark is "not taken" (R11, R14). -/
abbrev ScanBuffer := Vector (Option Word) 168

/-- The loop interface. In FRAMED and LOCKED, `edge` is the time base at the last line transition of the LRX pair, from which the
silence of R13 is measured, `frameEnd` that at which the frame in progress began, and `level` the last bit before it (log 43). -/
structure Lif where
  cfg : LoopRecord
  rx : RxState
  selected : Rate
  trial : Option Rate
  hunt : Option Timer
  dwell : Option Timer
  ended : Bool
  candidate : Option Nat
  huntFrom : Nat
  expected : Option (Fin 6)
  qualifying : Nat
  run : Nat
  badAlign : Nat
  edge : Time
  frameEnd : Time
  level : Bool
  alignErr : ErrorCounter
  checkErr : ErrorCounter
  seqErr : ErrorCounter
  remoteAlarm : Bool
  stationFault : Bool
  buffer : ScanBuffer
  continuous : Bool
  blindTimer : Option Timer
  blind : Bool
  tx : Transmitter
  deriving DecidableEq, Repr

/-! ## ACQ, the channel table (chapter 2) -/

/-- Channel kinds (Table 2-2). -/
inductive Kind where
  | temp | press | flow | speed | conc | purity | state | level
  deriving DecidableEq, Repr

/-- The CHANNEL record (Table 2-1). -/
structure ChannelRecord where
  inUse : Bool
  pos : Position
  kind : Kind
  signedRaw : Bool
  gain : Int
  offset : Int
  lo : Int
  hi : Int
  staleLimit : Nat
  deriving DecidableEq, Repr

/-- Qualities (Table 2-5). -/
inductive Quality where
  | good | clamped | held | stale | forced
  deriving DecidableEq, Repr

/-- A channel: its record and its runtime part (section 2.2). `force` holds the force value while the force flag is set. -/
structure Channel where
  cfg : ChannelRecord
  value : Int
  quality : Quality
  age : Nat
  lastRaw : Word
  trim : Int
  pendingTrim : Option Int
  force : Option Int
  staleMark : Bool
  deriving DecidableEq, Repr

/-- The channel table. `first` is set until the first snapshot after a reset has been published (R30). -/
structure Acq where
  chans : Vector Channel 96
  number : BitVec 16
  prevStamp : Option Time
  interval : Option (BitVec 32)
  first : Bool
  deriving DecidableEq, Repr

/-- What a job sees of a channel (section 2.2). -/
structure Reading where
  value : Int
  quality : Quality
  age : Nat
  deriving DecidableEq, Repr

/-! ## OUT, the output unit (chapter 3) -/

/-- Output sources (Table 3-2). -/
inductive Source where
  | wellRun (w : WellNo)
  | wellSpeed (w : WellNo)
  | heatValve
  | bypassValve
  | stopValve
  | direct (i : Fin 8)
  deriving DecidableEq, Repr

/-- The OUTPUT record (Table 3-1). -/
structure OutputRecord where
  inUse : Bool
  pos : Position
  source : Source
  ramp : Int
  failSafe : Int
  deriving DecidableEq, Repr

/-- An output: its record and its runtime part (section 3.2). -/
structure Output where
  cfg : OutputRecord
  demand : Int
  issued : Int
  rise : Bool
  outOfService : Bool
  deriving DecidableEq, Repr

/-- The output unit; `failSafe` is the fail-safe state (section 3.5). -/
structure Out where
  outs : Vector Output 64
  failSafe : Bool
  deriving DecidableEq, Repr

/-! ## MBC, modes and banks (chapter 4) -/

/-- The fields of a setpoint bank and of the FAILSAFE record (Table 4-6). -/
structure Bank where
  speeds : Vector Int 16
  heatCeiling : Int
  shift : Int
  bypass : Int
  direct : Vector Int 8
  deriving DecidableEq, Repr

/-- The origin of the ACTIVE bank (R61). -/
inductive Origin where
  | default
  | published (count : BitVec 16)
  | failsafe
  deriving DecidableEq, Repr

/-- A full PENDING bank: its contents and the publication count of its origin (R61). -/
structure PendingBank where
  bank : Bank
  count : BitVec 16
  deriving DecidableEq, Repr

/-- Clock resolutions (Table 9-1). -/
inductive Resolution where
  | ms1 | ms10 | ms100
  deriving DecidableEq, Repr

/-- The TIMING record (Table 9-1). -/
structure TimingRecord where
  hostMs : Nat
  resolution : Resolution
  syncHoldS : Nat
  stepMs : Nat
  deriving DecidableEq, Repr

/-- The mode and bank controller. `pubBank` is the PENDING bank, absent when empty. -/
structure Mbc where
  mode : Mode
  staging : Bank
  pubBank : Option PendingBank
  active : Bank
  origin : Origin
  pubCount : BitVec 16
  link : Link
  hostTimer : Option Timer
  failsafe : Bank
  timing : TimingRecord
  deriving DecidableEq, Repr

/-! ## WSV, the well supervisor (chapter 5) -/

/-- Roles of a well (Table 5-1). -/
inductive Role where
  | unused | production | reinjection
  deriving DecidableEq, Repr

/-- The WELL record (Table 5-1). -/
structure WellRecord where
  role : Role
  flow : ChannelNo
  intake : ChannelNo
  motor : Option ChannelNo
  startSpeed : Int
  minFlow : Int
  startMs : Nat
  intakeLimit : Int
  intakePersistence : Nat
  tripLimit : Nat
  windowMin : Nat
  rated : Int
  point : Option PointNo
  derate : Int
  deriving DecidableEq, Repr

/-- Well states (section 5.2); a well of role UNUSED has none. -/
inductive WellState where
  | outOfService | stopped | startPending | starting | running | tripped | lockedOut
  deriving DecidableEq, Repr

/-- Trip causes of a well (R93). -/
inductive TripCause where
  | startFail | lowIntake | motor
  deriving DecidableEq, Repr

/-- A PERMIT entry (R79). -/
structure Permit where
  start : Bool
  clear : Bool
  serviceOut : Bool
  serviceIn : Bool
  deriving DecidableEq, Repr

/-- A well: its record, its PERMIT and HOLD entries, which belong to the index (section 5.2), and its runtime state (Table 5-9).
`runDemand` and `speedDemand` are the demands last delivered (R97). -/
structure Well where
  cfg : WellRecord
  permit : Permit
  hold : Bool
  state : Option WellState
  history : List Time
  lastTrip : Option TripCause
  intakeCount : Nat
  flowBlind : Bool
  intakeBlind : Bool
  motorBlind : Bool
  startTimer : Option Timer
  runDemand : Int
  speedDemand : Int
  deriving DecidableEq, Repr

/-- The PLANT record (Table 5-2). -/
structure PlantRecord where
  ceilingMin : Int
  runback : Int
  recover : Int
  margin : Int
  check : Bool
  brine : Option ChannelNo
  steam : Option ChannelNo
  staggerMs : Nat
  deriving DecidableEq, Repr

/-- Results of the reinjection balance (R95, Table 5-5). -/
inductive BalanceResult where
  | hold | deficit | surplus | held | notComputed
  deriving DecidableEq, Repr

/-! ## TGD, the turbine guard (chapter 6) -/

/-- The TURBINE record (Table 6-1). -/
structure TurbineRecord where
  speed : ChannelNo
  tripSpeed : Int
  lube : ChannelNo
  lubeTrip : Int
  lubePersistence : Nat
  lubeRun : Int
  lubeHoldS : Nat
  gear : ChannelNo
  warmS : Nat
  turningSpeed : Int
  purity : ChannelNo
  purityTrip : Int
  purityPersistence : Nat
  purityStart : Int
  purityHoldS : Nat
  field : Option ChannelNo
  bypassCapacity : Int
  bypassPosition : Int
  deriving DecidableEq, Repr

/-- Guard states (section 6.2). -/
inductive Guard where
  | armed | tripped
  deriving DecidableEq, Repr

/-- Trip causes of the turbine (Table 6-3). -/
inductive Cause where
  | overspeed | lubeLow | purityHigh | field | blind | hostTrip | restarted
  deriving DecidableEq, Repr

/-- A trip cap in force, with its stale-origin mark (R100, R107). -/
structure Cap where
  value : Int
  stale : Bool
  deriving DecidableEq, Repr

/-- States of a permissive step; a TIMING step holds its hold timer (section 6.6). -/
inductive StepState where
  | incomplete
  | timing (timer : Timer)
  | complete
  deriving DecidableEq, Repr

/-- The permissive chain (Table 6-4). -/
structure Chain where
  s1 : StepState
  s2 : StepState
  s3 : StepState
  s4 : StepState
  s5 : StepState
  deriving DecidableEq, Repr

/-! ## HXU, the heat exchange unit (chapter 7) -/

/-- A point of the heating curve or of a solubility curve. -/
structure CurvePoint where
  x : Int
  y : Int
  deriving DecidableEq, Repr

/-- The HEATING record (Table 7-1). -/
structure HeatingRecord where
  enable : Bool
  outdoor : ChannelNo
  districtReturn : ChannelNo
  districtSupply : ChannelNo
  districtFlow : ChannelNo
  brineInlet : ChannelNo
  brineOutlet : ChannelNo
  brineFlow : ChannelNo
  cpD : Int
  cpB : Int
  qRated : Int
  setMin : Int
  setMax : Int
  absFloor : Int
  fallFloor : Int
  floorPoint : Option PointNo
  floorHold : Nat
  guardBand : Int
  guardStep : Int
  guardPersistence : Nat
  deficitKw : Int
  deficitPersistence : Nat
  deriving DecidableEq, Repr

/-- Sources of the temperature floor (R122). -/
inductive FloorSource where
  | point | fallback | absolute
  deriving DecidableEq, Repr

/-- The heating figures and the heating valve demand, which HXU publishes (Table 2-6). -/
structure HeatFigures where
  tSp : Int
  tFl : Int
  source : FloorSource
  qReq : Int
  qAvail : Int
  qPlan : Int
  plan : Int
  valve : Int
  qDel : Int
  deriving DecidableEq, Repr

/-- The heat exchange unit. `energy` is in kWh, `residue` in mJ. -/
structure Hxu where
  cfg : HeatingRecord
  curve : List CurvePoint
  fig : HeatFigures
  heldCount : Nat
  planHeld : Bool
  inputMarks : Vector Bool 7
  engaged : Bool
  guardCount : Nat
  reduction : Int
  deficit : Bool
  deficitCount : Nat
  scalingLimited : Bool
  lastSnap : Option (BitVec 16)
  energy : Nat
  residue : Int
  saturated : Bool
  deriving DecidableEq, Repr

/-! ## SCM, the scaling monitor (chapter 8) -/

/-- The POINT record (Table 8-2); `lab` is silica source LAB, `unity` is CF mode UNITY. -/
structure PointRecord where
  inUse : Bool
  temp : ChannelNo
  lab : Bool
  silica : Option ChannelNo
  unity : Bool
  curve : CurveNo
  warn : Int
  alarm : Int
  limit : Int
  hysteresis : Int
  alarmPersistence : Nat
  clearPersistence : Nat
  holdLimit : Nat
  deriving DecidableEq, Repr

/-- Validities of a point's result (R147). -/
inductive Validity where
  | valid | held | invalid
  deriving DecidableEq, Repr

/-- Alarm states of a point (Table 8-6). -/
inductive AlarmState where
  | normal | watch | alarm
  deriving DecidableEq, Repr

/-- The published record of a point (R151). -/
structure PointResult where
  si : Int
  s : Int
  cEff : Int
  tFloor : Int
  unreachable : Bool
  validity : Validity
  state : AlarmState
  unack : Bool
  number : BitVec 16
  deriving DecidableEq, Repr

/-- A scaling point: its record and its runtime state (Table 8-8). `computed` marks that a result has been computed since the
last reset (R146, R147). -/
structure Point where
  cfg : PointRecord
  labValue : Option Int
  pendingLab : Option Int
  res : PointResult
  heldCount : Nat
  alarmCount : Nat
  clearCount : Nat
  tUsed : Int
  cUsed : Int
  computed : Bool
  deriving DecidableEq, Repr

/-- States of the plant concentration factor (R140). -/
inductive CfState where
  | valid | held | none
  deriving DecidableEq, Repr

/-- The scaling monitor. -/
structure Scm where
  curves : Vector (List CurvePoint) 4
  points : Vector Point 8
  cf : Int
  cfState : CfState
  cfHeld : Nat
  fProd : Int
  fBrine : Int
  lastSnap : Option (BitVec 16)
  deriving DecidableEq, Repr

/-! ## CLK and EVQ, the plant clock and the event queue (chapter 9) -/

/-- Last sync source taken (R156). -/
inductive SyncSource where
  | none | a | b
  deriving DecidableEq, Repr

/-- The plant clock. `period` is the time-base value at which the running period began (R154). -/
structure Clk where
  count : BitVec 32
  period : Time
  source : SyncSource
  lastA : Option Time
  deriving DecidableEq, Repr

/-- The events of Table 9-3, class by class. -/
inductive EventKind where
  | loopRateFound | loopLock | loopUnlock | loopStationFault | loopRemoteAlarm | loopRemoteClear | loopCounterFull
  | loopBlind | loopBlindEnd
  | chanStale | chanFresh | chanForceOn | chanForceOff
  | wellQueued | wellGranted | wellRunning | wellStopped | wellTrip | wellLockout | wellCleared | wellService
  | wellFlowBlind | wellIntakeBlind | wellMotorBlind | wellDeficit | wellDeficitEnd | wellBrineBlind
  | turbTrip | turbCause | turbCapOn | turbStepDone | turbStepLost | turbReset
  | heatInputStale | heatFloorFallback | heatFloorPoint | heatGuardOn | heatGuardOff | heatDeficit | heatDeficitEnd
  | heatEnergyCleared
  | scaleLab | scaleCfHeld | scaleCfValid | scaleFloorUnreachable | scaleHeld | scaleInvalid | scaleValid | scaleAlarm
  | scaleAlarmEnd
  | bankMode | bankSuperseded | bankActivated | bankSilent | bankResumed
  | captHalf | captWrap | captTriggered | captFrozen
  | clockRollover | clockSet | clockSourceB | clockStep
  deriving DecidableEq, Repr

/-- An event entry (Table 9-2). -/
structure Entry where
  kind : EventKind
  subject : BitVec 16
  param : BitVec 32
  stamp : BitVec 32
  deriving DecidableEq, Repr

/-- A CLASS entry (R157). -/
structure ClassEntry where
  log : Bool
  attend : Bool
  summary : Bool
  deriving DecidableEq, Repr

/-- The event queue, oldest entry first; `attnLow` is ATTN_N pulled low (R160). -/
structure Evq where
  queue : List Entry
  overrun : Bool
  classes : Vector ClassEntry 9
  attnLow : Bool
  deriving DecidableEq, Repr

/-! ## CAP, the capture ring (chapter 10) -/

/-- Capture sources (Table 10-2). -/
inductive CaptureSource where
  | channel (c : ChannelNo)
  | si (p : PointNo)
  | floor (p : PointNo)
  | pceil
  | heatdem
  deriving DecidableEq, Repr

/-- Triggers (Table 10-1). -/
inductive Trigger where
  | none | scaleAlarm | turbineTrip | any
  deriving DecidableEq, Repr

/-- The CAPTURE record (R163). -/
structure CaptureRecord where
  sources : List CaptureSource
  decimation : Nat
  trigger : Trigger
  postCount : Nat
  deriving DecidableEq, Repr

/-- Capture states (R164). -/
inductive CaptureState where
  | stopped | running | triggered | frozen
  deriving DecidableEq, Repr

/-- The words of the ring that are not 0, at strictly rising offsets; a word not listed is 0, as power-on leaves it (R169). -/
abbrev Memory := List (Nat × Word)

/-- The capture ring. -/
structure Capture where
  cfg : CaptureRecord
  state : CaptureState
  pos : Nat
  dec : Nat
  post : Nat
  alarmMarks : Vector Bool 8
  lastTrips : BitVec 16
  ring : Memory
  deriving DecidableEq, Repr

/-! ## CPT, the command port (chapter 11) -/

/-- States of the command port's receiver (R171). Outside HUNT a frame is in progress, and `last` is the time base at the end of
its last byte; BODY holds LEN and the body bytes taken so far, CHECK holds LEN, the whole body and the first CRC byte once it has
been taken. -/
inductive CptRx where
  | hunt
  | length (last : Time)
  | body (last : Time) (len : Byte) (taken : List Byte)
  | check (last : Time) (len : Byte) (body : List Byte) (crcHigh : Option Byte)
  deriving DecidableEq, Repr

/-- Status codes of a reply (Table 11-3). -/
inductive Status where
  | ok | already | unknown | badLength | badIndex | badValue | badConfig | wrongMode | wrongState | notPermitted | onHold
  | linkLocked | blocked
  deriving DecidableEq, Repr

/-- A reply (Table 11-2). -/
structure Reply where
  kind : Byte
  tag : Word
  status : Status
  flags : Byte
  payload : List Byte
  deriving DecidableEq, Repr

/-- The content of the full frame buffer: the request taken and the reply going out for it (R173). `sending` runs from the moment
the request was taken to the end of the reply's last byte, and `delay` is the microseconds of it before the reply starts. -/
structure Exchange where
  kind : Byte
  request : Request
  reply : Reply
  sending : Timer
  delay : Nat
  deriving DecidableEq, Repr

/-- The command port. -/
structure Cpt where
  rx : CptRx
  buffer : Option Exchange
  overrun : Bool
  deriving DecidableEq, Repr

/-! ## The snapshot view (section 2.6) -/

/-- What a job sees while it processes a snapshot: the snapshot, and every job's published record as it stood when the snapshot
was published (R37, Table 2-6). -/
structure View where
  number : BitVec 16
  stamp : Time
  interval : Option (BitVec 32)
  chans : Vector Reading 96
  mode : Mode
  active : Bank
  origin : Origin
  link : Link
  wells : Vector (Option WellState) 16
  ceiling : Int
  result : BalanceResult
  deficit : Bool
  guard : Guard
  first : Option Cause
  causes : List Cause
  tripCount : BitVec 16
  cap : Option Cap
  points : Vector PointResult 8
  cf : Int
  cfState : CfState
  heat : HeatFigures
  deriving DecidableEq, Repr

/-- The well supervisor; `view` is the view of the last snapshot it processed (R76; before any, log 13). -/
structure Wsv where
  plant : PlantRecord
  wells : Vector Well 16
  queue : List WellNo
  slot : Option WellNo
  stagger : Option Timer
  ceiling : Int
  result : BalanceResult
  deficit : Bool
  capacity : Int
  threshold : Int
  brineMark : Bool
  view : View
  deriving DecidableEq, Repr

/-- The turbine guard; `view` is the view of the last snapshot it processed (R101), and `causes` lists the cause set without
duplicates in the order taken. -/
structure Tgd where
  cfg : TurbineRecord
  guard : Guard
  first : Option Cause
  causes : List Cause
  tripStamp : Time
  tripCount : BitVec 16
  cap : Option Cap
  lubeCount : Nat
  purityCount : Nat
  chain : Chain
  stopDemand : Int
  bypassDemand : Int
  view : View
  deriving DecidableEq, Repr

/-- The jobs that have not yet processed the snapshot of the view (R36). -/
structure Jobs where
  mbc : Bool
  wsv : Bool
  tgd : Bool
  hxu : Bool
  scm : Bool
  cap : Bool
  deriving DecidableEq, Repr

/-- The whole part. `pending` is the queue of the commands that wait, first in first out; `free` counts the free values taken. -/
structure State where
  held : Bool
  now : Time
  straps : BitVec 2
  lif : Lif
  acq : Acq
  out : Out
  mbc : Mbc
  wsv : Wsv
  tgd : Tgd
  hxu : Hxu
  scm : Scm
  clk : Clk
  evq : Evq
  cap : Capture
  cpt : Cpt
  view : View
  todo : Jobs
  free : Nat
  pending : List Instr
  deriving DecidableEq, Repr

/-- Why the part stops with a fault. The manual names no such stop, and no meaning of this model raises one. -/
inductive Fault where
  /-- Raised by nothing: every command of the table has an effect in every state. Safe. -/
  | none
  deriving DecidableEq, Repr

/-- Why a command has no meaning in the model. -/
inductive Refusal where
  /-- Raised by the dispatch for a command without a meaning; none is left. Safe. -/
  | notModelled (mnemonic : String)
  deriving DecidableEq, Repr

/-! ## Defaults at power-on -/

/-- Table 1 of R3. -/
def LoopRecord.default : LoopRecord :=
  { rate := 1, autoRate := false, lossCount := 3, counterWidth := 8, blindMs := 1000 }

/-- Table 2-1, default column. -/
def ChannelRecord.default : ChannelRecord :=
  { inUse := false, pos := ⟨0, 0⟩, kind := .level, signedRaw := false, gain := 1024, offset := 0, lo := 0, hi := 1000,
    staleLimit := 10 }

/-- Table 3-1, default column. -/
def OutputRecord.default : OutputRecord :=
  { inUse := false, pos := ⟨0, 0⟩, source := .direct 0, ramp := 1000, failSafe := 0 }

/-- Every target 0 (R66, R71). -/
def Bank.zero : Bank :=
  { speeds := Vector.replicate 16 0, heatCeiling := 0, shift := 0, bypass := 0, direct := Vector.replicate 8 0 }

/-- Table 9-1, default column. -/
def TimingRecord.default : TimingRecord :=
  { hostMs := 2000, resolution := .ms1, syncHoldS := 60, stepMs := 1000 }

/-- Table 5-1, default column. -/
def WellRecord.default : WellRecord :=
  { role := .unused, flow := 0, intake := 0, motor := none, startSpeed := 300, minFlow := 50, startMs := 60000,
    intakeLimit := 0, intakePersistence := 5, tripLimit := 3, windowMin := 60, rated := 0, point := none, derate := 1000 }

/-- Table 5-2, default column. -/
def PlantRecord.default : PlantRecord :=
  { ceilingMin := 200, runback := 20, recover := 5, margin := 50, check := true, brine := none, steam := none,
    staggerMs := 30000 }

/-- Table 6-1, default column. -/
def TurbineRecord.default : TurbineRecord :=
  { speed := 0, tripSpeed := 3300, lube := 0, lubeTrip := 150, lubePersistence := 3, lubeRun := 200, lubeHoldS := 30, gear := 0,
    warmS := 600, turningSpeed := 200, purity := 0, purityTrip := 500, purityPersistence := 5, purityStart := 100,
    purityHoldS := 60, field := none, bypassCapacity := 0, bypassPosition := 1000 }

/-- Table 7-1, default column. -/
def HeatingRecord.default : HeatingRecord :=
  { enable := false, outdoor := 0, districtReturn := 0, districtSupply := 0, districtFlow := 0, brineInlet := 0,
    brineOutlet := 0, brineFlow := 0, cpD := 4190, cpB := 4200, qRated := 10000, setMin := 400, setMax := 1200, absFloor := 700,
    fallFloor := 1700, floorPoint := none, floorHold := 50, guardBand := 20, guardStep := 20, guardPersistence := 5,
    deficitKw := 1000, deficitPersistence := 50 }

/-- Table 8-2, default column. -/
def PointRecord.default : PointRecord :=
  { inUse := false, temp := 0, lab := false, silica := some 0, unity := false, curve := 0, warn := 1000, alarm := 1100,
    limit := 1000, hysteresis := 50, alarmPersistence := 5, clearPersistence := 20, holdLimit := 50 }

/-- R163: one source, PCEIL, with decimation 1, trigger NONE and post count 0. -/
def CaptureRecord.default : CaptureRecord :=
  { sources := [.pceil], decimation := 1, trigger := .none, postCount := 0 }

/-! ## Values after each reset -/

/-- R21: the runtime state of LIF after each reset, with the LOOP record it keeps. -/
def Lif.init (cfg : LoopRecord) : Lif :=
  { cfg := cfg, rx := .off, selected := cfg.rate, trial := none, hunt := none, dwell := none, ended := false, candidate := none,
    huntFrom := 0, expected := none, qualifying := 0, run := 0, badAlign := 0, edge := 0, frameEnd := 0, level := false, alignErr := ⟨0, false⟩,
    checkErr := ⟨0, false⟩, seqErr := ⟨0, false⟩, remoteAlarm := false, stationFault := false, buffer := Vector.replicate 168 none, continuous := false,
    blindTimer := none, blind := false,
    tx := { timer := none, rate := cfg.rate, next := none, slots := Vector.replicate 168 0x8000#16, bit11 := false,
            line := none } }

/-- Table 2-7, one channel. -/
def Channel.init (cfg : ChannelRecord) : Channel :=
  { cfg := cfg, value := 0, quality := .stale, age := 255, lastRaw := 0x8000#16, trim := 0, pendingTrim := none, force := none,
    staleMark := false }

/-- Table 2-7, seen by a job. -/
def Reading.init : Reading := { value := 0, quality := .stale, age := 255 }

/-- Table 3-6, one output. -/
def Output.init (cfg : OutputRecord) : Output :=
  { cfg := cfg, demand := 0, issued := 0, rise := false, outOfService := false }

/-- R75: the state that a well's role gives it in CONFIG. -/
def Role.initState : Role → Option WellState
  | .unused => none
  | .production => some .stopped
  | .reinjection => some .stopped

/-- Table 5-9, one well, with the tables it keeps. -/
def Well.init (cfg : WellRecord) (permit : Permit) (hold : Bool) : Well :=
  { cfg := cfg, permit := permit, hold := hold, state := cfg.role.initState, history := [], lastTrip := none, intakeCount := 0,
    flowBlind := false, intakeBlind := false, motorBlind := false, startTimer := none, runDemand := 0, speedDemand := 0 }

/-- Table 7-5, the published part. -/
def HeatFigures.init : HeatFigures :=
  { tSp := 0, tFl := 0, source := .fallback, qReq := 0, qAvail := 0, qPlan := 0, plan := 0, valve := 0, qDel := 0 }

/-- Table 8-8, the published part. -/
def PointResult.init : PointResult :=
  { si := 0, s := 0, cEff := 0, tFloor := 0, unreachable := false, validity := .invalid, state := .normal, unack := false,
    number := 0 }

/-- Table 8-8, one point. -/
def Point.init (cfg : PointRecord) : Point :=
  { cfg := cfg, labValue := none, pendingLab := none, res := .init, heldCount := 0, alarmCount := 0, clearCount := 0, tUsed := 0,
    cUsed := 0, computed := false }

/-- Every step INCOMPLETE (Table 6-7). -/
def Chain.init : Chain :=
  { s1 := .incomplete, s2 := .incomplete, s3 := .incomplete, s4 := .incomplete, s5 := .incomplete }

/-- The view before any snapshot: every published record at its reset value (R38), given the states of the wells. -/
def View.init (wells : Vector (Option WellState) 16) : View :=
  { number := 0, stamp := 0, interval := none, chans := Vector.replicate 96 .init, mode := .config, active := .zero,
    origin := .default, link := .linked, wells := wells, ceiling := 1000, result := .notComputed, deficit := false,
    guard := .tripped, first := some .restarted, causes := [.restarted], tripCount := 0, cap := none,
    points := Vector.replicate 8 .init, cf := 1000, cfState := .none, heat := .init }

/-- R178: every block at its power-on values, with the strap code sampled at the edge. -/
def State.powerOn (straps : BitVec 2) : State :=
  { held := false
    now := 0
    straps := straps
    lif := Lif.init .default
    acq := { chans := Vector.replicate 96 (Channel.init .default), number := 0, prevStamp := none, interval := none,
             first := true }
    out := { outs := Vector.replicate 64 (Output.init .default), failSafe := false }
    mbc := { mode := .config, staging := .zero, pubBank := none, active := .zero, origin := .default, pubCount := 0,
             link := .linked, hostTimer := none, failsafe := .zero, timing := .default }
    wsv := { plant := .default, wells := Vector.replicate 16 (Well.init .default ⟨true, true, true, true⟩ false), queue := [],
             slot := none, stagger := none, ceiling := 1000, result := .notComputed, deficit := false, capacity := 0,
             threshold := 0, brineMark := false, view := View.init (Vector.replicate 16 none) }
    tgd := { cfg := .default, guard := .tripped, first := some .restarted, causes := [.restarted], tripStamp := 0, tripCount := 0,
             cap := none, lubeCount := 0, purityCount := 0, chain := .init, stopDemand := 0, bypassDemand := 0,
             view := View.init (Vector.replicate 16 none) }
    hxu := { cfg := .default, curve := [], fig := .init, heldCount := 0, planHeld := false, inputMarks := Vector.replicate 7 false,
             engaged := false, guardCount := 0, reduction := 0, deficit := false, deficitCount := 0, scalingLimited := false,
             lastSnap := none, energy := 0, residue := 0, saturated := false }
    scm := { curves := Vector.replicate 4 [], points := Vector.replicate 8 (Point.init .default), cf := 1000, cfState := .none,
             cfHeld := 0, fProd := 0, fBrine := 0, lastSnap := none }
    clk := { count := 0, period := 0, source := .none, lastA := none }
    evq := { queue := [], overrun := false, classes := Vector.replicate 9 ⟨true, true, false⟩, attnLow := false }
    cap := { cfg := .default, state := .stopped, pos := 0, dec := 0, post := 0, alarmMarks := Vector.replicate 8 false,
             lastTrips := 0, ring := [] }
    cpt := { rx := .hunt, buffer := none, overrun := false }
    view := View.init (Vector.replicate 16 none)
    todo := ⟨false, false, false, false, false, false⟩
    free := 0
    pending := [] }

/-- The part right after reset: R178 with the strap code 0, which the spec leaves to the pins (DESIGN CHOICE, log 11). -/
def State.reset : State := State.powerOn 0

end Sys2Proof.Machine
end

