-- ==== Sys2Proof/Machine/Flags.lean ====
section
/-! DEFINITION. The code numbers that the manual gives its names, and the flag computations over one record. -/

namespace Sys2Proof.Machine

/-- Mode codes (R53). -/
def Mode.code : Mode → Int
  | .config => 0
  | .standby => 1
  | .supervise => 2
  | .leaving => 3

/-- Receive state codes (R16). -/
def RxState.code : RxState → Int
  | .off => 0
  | .search => 1
  | .hunt => 2
  | .framed => 3
  | .locked => 4

/-- Kind codes (Table 2-2). -/
def Kind.code : Kind → Int
  | .temp => 0
  | .press => 1
  | .flow => 2
  | .speed => 3
  | .conc => 4
  | .purity => 5
  | .state => 6
  | .level => 7

/-- The kind of a kind code (Table 2-2). -/
def Kind.ofCode (n : Int) : Option Kind :=
  if n = 0 then some .temp else if n = 1 then some .press else if n = 2 then some .flow else if n = 3 then some .speed
  else if n = 4 then some .conc else if n = 5 then some .purity else if n = 6 then some .state else if n = 7 then some .level
  else none

/-- The least value of a kind's range (Table 2-2). -/
def Kind.low : Kind → Int
  | .temp => -2731
  | _ => 0

/-- The greatest value of a kind's range (Table 2-2). -/
def Kind.high : Kind → Int
  | .temp => 20000
  | .press => 200000
  | .flow => 200000
  | .speed => 60000
  | .conc => 65535
  | .purity => 1000000
  | .state => 1
  | .level => 1000

/-- Quality codes (Table 2-5). -/
def Quality.code : Quality → Int
  | .good => 0
  | .clamped => 1
  | .held => 2
  | .stale => 3
  | .forced => 4

/-- GOOD, CLAMPED, HELD and FORCED are usable, STALE is not (R31). -/
def Quality.usable : Quality → Bool
  | .stale => false
  | _ => true

/-- A reading whose quality is usable (R31). -/
def Reading.usable (r : Reading) : Bool := r.quality.usable

/-- A usable reading that satisfies a test on its value. -/
def Reading.holds (r : Reading) (p : Int → Bool) : Bool := r.usable && p r.value

/-- Source codes (Table 3-2). -/
def Source.code : Source → Int
  | .wellRun _ => 0
  | .wellSpeed _ => 1
  | .heatValve => 2
  | .bypassValve => 3
  | .stopValve => 4
  | .direct _ => 5

/-- Source indexes (Table 3-2). -/
def Source.index : Source → Int
  | .wellRun w => w.val
  | .wellSpeed w => w.val
  | .heatValve => 0
  | .bypassValve => 0
  | .stopValve => 0
  | .direct i => i.val

/-- WELL_RUN and STOP_VALVE are discrete (Table 3-2). -/
def Source.discrete : Source → Bool
  | .wellRun _ => true
  | .stopValve => true
  | _ => false

/-- Origin codes of READ_BANK (R65); 3 is EMPTY and 4 none. -/
def Origin.code : Origin → Int
  | .default => 0
  | .published _ => 1
  | .failsafe => 2

/-- The publication count of an origin, 0 unless PUBLISHED (R65). -/
def Origin.count : Origin → BitVec 16
  | .published c => c
  | _ => 0

/-- Role codes (Table 5-3). -/
def Role.code : Role → Int
  | .unused => 0
  | .production => 1
  | .reinjection => 2

/-- Well state codes; 0 for a well without a state (Table 5-8). -/
def WellState.code : Option WellState → Int
  | none => 0
  | some .outOfService => 1
  | some .stopped => 2
  | some .startPending => 3
  | some .starting => 4
  | some .running => 5
  | some .tripped => 6
  | some .lockedOut => 7

/-- Well trip cause codes (R93); 0 none (Table 5-6). -/
def TripCause.code : Option TripCause → Int
  | none => 0
  | some .startFail => 1
  | some .lowIntake => 2
  | some .motor => 3

/-- Balance result codes (Table 5-5). -/
def BalanceResult.code : BalanceResult → Int
  | .hold => 0
  | .deficit => 1
  | .surplus => 2
  | .held => 3
  | .notComputed => 4

/-- Guard state codes (R112). -/
def Guard.code : Guard → Int
  | .armed => 0
  | .tripped => 1

/-- Turbine cause codes (Table 6-3). -/
def Cause.code : Cause → Int
  | .overspeed => 1
  | .lubeLow => 2
  | .purityHigh => 3
  | .field => 4
  | .blind => 5
  | .hostTrip => 6
  | .restarted => 7

/-- The causes in code order. -/
def Cause.all : List Cause := [.overspeed, .lubeLow, .purityHigh, .field, .blind, .hostTrip, .restarted]

/-- Step state codes (Table 6-5). -/
def StepState.code : StepState → Int
  | .incomplete => 0
  | .timing _ => 1
  | .complete => 2

/-- A step is COMPLETE; a step in TIMING counts as not COMPLETE (R114). -/
def StepState.isComplete : StepState → Bool
  | .complete => true
  | _ => false

/-- Floor source codes (Table 7-3). -/
def FloorSource.code : FloorSource → Int
  | .point => 0
  | .fallback => 1
  | .absolute => 2

/-- Validity codes (Table 8-5). -/
def Validity.code : Validity → Int
  | .valid => 0
  | .held => 1
  | .invalid => 2

/-- Alarm state codes (Table 8-6). -/
def AlarmState.code : AlarmState → Int
  | .normal => 0
  | .watch => 1
  | .alarm => 2

/-- CF state codes (Table 8-4). -/
def CfState.code : CfState → Int
  | .valid => 0
  | .held => 1
  | .none => 2

/-- Sync source codes (R156). -/
def SyncSource.code : SyncSource → Int
  | .none => 0
  | .a => 1
  | .b => 2

/-- Capture state codes (R167). -/
def CaptureState.code : CaptureState → Int
  | .stopped => 0
  | .running => 1
  | .triggered => 2
  | .frozen => 3

/-- Status codes (Table 11-3). -/
def Status.code : Status → Byte
  | .ok => 0x00#8
  | .already => 0x01#8
  | .unknown => 0x10#8
  | .badLength => 0x11#8
  | .badIndex => 0x12#8
  | .badValue => 0x13#8
  | .badConfig => 0x14#8
  | .wrongMode => 0x20#8
  | .wrongState => 0x21#8
  | .notPermitted => 0x22#8
  | .onHold => 0x23#8
  | .linkLocked => 0x24#8
  | .blocked => 0x25#8

/-- The class code of an event (Table 9-3). -/
def EventKind.cls : EventKind → Fin 9
  | .loopRateFound | .loopLock | .loopUnlock | .loopStationFault | .loopRemoteAlarm | .loopRemoteClear | .loopCounterFull
  | .loopBlind | .loopBlindEnd => 0
  | .chanStale | .chanFresh | .chanForceOn | .chanForceOff => 1
  | .wellQueued | .wellGranted | .wellRunning | .wellStopped | .wellTrip | .wellLockout | .wellCleared | .wellService
  | .wellFlowBlind | .wellIntakeBlind | .wellMotorBlind | .wellDeficit | .wellDeficitEnd | .wellBrineBlind => 2
  | .turbTrip | .turbCause | .turbCapOn | .turbStepDone | .turbStepLost | .turbReset => 3
  | .heatInputStale | .heatFloorFallback | .heatFloorPoint | .heatGuardOn | .heatGuardOff | .heatDeficit | .heatDeficitEnd
  | .heatEnergyCleared => 4
  | .scaleLab | .scaleCfHeld | .scaleCfValid | .scaleFloorUnreachable | .scaleHeld | .scaleInvalid | .scaleValid | .scaleAlarm
  | .scaleAlarmEnd => 5
  | .bankMode | .bankSuperseded | .bankActivated | .bankSilent | .bankResumed => 6
  | .captHalf | .captWrap | .captTriggered | .captFrozen => 7
  | .clockRollover | .clockSet | .clockSourceB | .clockStep => 8

/-- The event code within its class (Table 9-3). -/
def EventKind.code : EventKind → Int
  | .loopRateFound => 1 | .loopLock => 2 | .loopUnlock => 3 | .loopStationFault => 4 | .loopRemoteAlarm => 5
  | .loopRemoteClear => 6 | .loopCounterFull => 7 | .loopBlind => 8 | .loopBlindEnd => 9
  | .chanStale => 1 | .chanFresh => 2 | .chanForceOn => 3 | .chanForceOff => 4
  | .wellQueued => 1 | .wellGranted => 2 | .wellRunning => 3 | .wellStopped => 4 | .wellTrip => 5 | .wellLockout => 6
  | .wellCleared => 7 | .wellService => 8 | .wellFlowBlind => 9 | .wellIntakeBlind => 10 | .wellMotorBlind => 11
  | .wellDeficit => 12 | .wellDeficitEnd => 13 | .wellBrineBlind => 14
  | .turbTrip => 1 | .turbCause => 2 | .turbCapOn => 3 | .turbStepDone => 4 | .turbStepLost => 5 | .turbReset => 6
  | .heatInputStale => 1 | .heatFloorFallback => 2 | .heatFloorPoint => 3 | .heatGuardOn => 4 | .heatGuardOff => 5
  | .heatDeficit => 6 | .heatDeficitEnd => 7 | .heatEnergyCleared => 8
  | .scaleLab => 1 | .scaleCfHeld => 2 | .scaleCfValid => 3 | .scaleFloorUnreachable => 4 | .scaleHeld => 5
  | .scaleInvalid => 6 | .scaleValid => 7 | .scaleAlarm => 8 | .scaleAlarmEnd => 9
  | .bankMode => 1 | .bankSuperseded => 2 | .bankActivated => 3 | .bankSilent => 4 | .bankResumed => 5
  | .captHalf => 1 | .captWrap => 2 | .captTriggered => 3 | .captFrozen => 4
  | .clockRollover => 1 | .clockSet => 2 | .clockSourceB => 3 | .clockStep => 4

/-- The 12 bytes of an event entry (Table 9-2). -/
def Entry.bytes (e : Entry) : List Byte :=
  put8 e.kind.cls.val ++ put8 e.kind.code ++ put16 e.subject.toInt ++ put32 e.param.toInt ++ put32 e.stamp.toInt

/-- The reply frame as it goes out on TXD (Table 11-2, R172). -/
def Reply.bytes (r : Reply) : List Byte :=
  let body := [r.kind, r.tag.extractLsb' 8 8, r.tag.extractLsb' 0 8, r.status.code, r.flags] ++ r.payload
  let sealed := BitVec.ofNat 8 body.length :: body
  let crc := crc16 sealed
  0xC3#8 :: sealed ++ [crc.extractLsb' 8 8, crc.extractLsb' 0 8]

/-! ## Curves -/

/-- A curve read at t: the end values beyond its ends, a point's own value at the point, and between two points the lower
point's value plus the quotient rounded to nearest (R124, R143). The consistency check keeps an empty curve from use (log 24). -/
def interpolate (t : Int) : List CurvePoint → Int
  | [] => 0
  | [p] => p.y
  | p :: q :: rest =>
    if t ≤ p.x then p.y
    else if t < q.x then p.y + roundDiv ((q.y - p.y) * (t - p.x)) (q.x - p.x)
    else interpolate t (q :: rest)

/-- The floor search of R145 after point p, whose solubility is below sReq: the first segment that reaches sReq, or the last
temperature with the unreachable flag. -/
def floorSearch (sReq : Int) : CurvePoint → List CurvePoint → Int × Bool
  | p, [] => (p.x, true)
  | p, q :: rest =>
    if q.y < sReq then floorSearch sReq q rest
    else if q.y = p.y then (q.x, false)
    else (p.x + ceilDiv ((sReq - p.y) * (q.x - p.x)) (q.y - p.y), false)

/-- Stage 5 of a point: T_floor and the unreachable flag (R145). -/
def tempFloor (sReq : Int) : List CurvePoint → Int × Bool
  | [] => (0, false)
  | p :: rest => if sReq ≤ p.y then (p.x, false) else floorSearch sReq p rest

end Sys2Proof.Machine
end

