-- ==== Sys2Proof/Machine/Ops.lean ====
section
/-! DEFINITION. The operations that several blocks share: the time base and its timers, raising an event, delivering a demand,
the words of the capture ring, taking a good frame. A block has no exception entry; raising an event and setting a line are its
effects on State. -/

namespace Sys2Proof.Machine

/-! ## The time base -/

/-- The difference of two time-base values, modulo 2^48 (introduction, section 6.3). -/
def elapsed (since now : Time) : Nat := (now - since).toNat

/-- The timer has run its stated duration. -/
def Timer.due (t : Timer) (now : Time) : Bool := decide (t.duration ≤ elapsed t.start now)

/-- A timer that runs has run its duration. -/
def dueAt (now : Time) (t : Option Timer) : Bool := t.any fun t => t.due now

/-- The time-base value at which the timer has run its duration. -/
def Timer.endsAt (t : Timer) : Time := t.start + BitVec.ofNat 48 t.duration

/-- Time left in ms, rounded up; 0 when the timer is not running (introduction, section 6.2). -/
def Timer.leftMs (now : Time) : Option Timer → Int
  | none => 0
  | some t => ((t.duration - elapsed t.start now + 999) / 1000 : Nat)

/-- An expiry takes place when its timer has run its duration: the time base stands at the timer's end, or past it when the
command comes later (log 3). -/
def State.reachEnd (s : State) (t : Timer) : State := { s with now := if t.due s.now then s.now else t.endsAt }

/-- A timer of a number of milliseconds that begins now. -/
def State.timerMs (s : State) (ms : Nat) : Timer := ⟨s.now, ms * 1000⟩

/-- Bit time of a rate in microseconds (Table 1-1). -/
def bitUs (r : Rate) : Nat := 16 / 2 ^ r.val

/-- Frame time of a rate in microseconds: 480 bit times (R1, Table 1-1). -/
def frameUs (r : Rate) : Nat := 480 * bitUs r

/-- Minimum blind time of a rate: 20 scan times, rounded up to a whole millisecond (R1). -/
def minBlindMs (r : Rate) : Nat := (120 * frameUs r + 999) / 1000

/-! ## Raising an event (R158, R160) -/

/-- The attention line as R160 gives it for a queue and a table. -/
def attention (queue : List Entry) (classes : Vector ClassEntry 9) : Bool :=
  queue.any (fun e => classes[e.kind.cls].attend) || decide (32 ≤ queue.length)

/-- The line judged again. -/
def Evq.judge (q : Evq) : Evq := { q with attnLow := attention q.queue q.classes }

/-- The summary flag of a class set (R158). -/
def Evq.markSummary (q : Evq) (c : Fin 9) : Evq :=
  { q with classes := q.classes.set c { q.classes[c] with summary := true } }

/-- An entry appended as the newest; a full queue of 64 gives up its oldest entry and sets the overrun flag (R158). -/
def Evq.append (q : Evq) (e : Entry) : Evq :=
  if q.queue.length < 64 then { q with queue := q.queue ++ [e] }
  else { q with queue := q.queue.tail ++ [e], overrun := true }

/-- What EVQ does when a block raises an event (R158). -/
def Evq.take (q : Evq) (e : Entry) : Evq :=
  let marked := q.markSummary e.kind.cls
  (if q.classes[e.kind.cls].log then marked.append e else marked).judge

/-- An event stamped with the plant clock as it stands. -/
def State.entry (s : State) (k : EventKind) (subject param : Int) : Entry :=
  { kind := k, subject := BitVec.ofInt 16 subject, param := BitVec.ofInt 32 param, stamp := s.clk.count }

/-- A block raises an event (R158). -/
def raise (k : EventKind) (subject param : Int) (s : State) : State :=
  { s with evq := s.evq.take (s.entry k subject param) }

/-- An event with its subject and parameter, before it is stamped. -/
structure Report where
  kind : EventKind
  subject : Int
  param : Int
  deriving DecidableEq, Repr

/-- A report raised. -/
def raiseOne (s : State) (e : Report) : State := raise e.kind e.subject e.param s

/-- Events raised one after the other, in list order. -/
def raiseAll (es : List Report) (s : State) : State := es.foldl raiseOne s

/-- An event raised when a condition holds. -/
def raiseIf (c : Bool) (k : EventKind) (subject param : Int) (s : State) : State := if c then raise k subject param s else s

/-- Two blocks that act at one moment: their events "may enter the queue in either order" (R158), so which acts first is a free
value (log 7). -/
def eitherOrder (f g : State → State) (s : State) : State :=
  let s' := { s with free := s.free + 1 }
  if Config.firstBlockFirst s.free then g (f s') else f (g s')

/-! ## Demand updates (R41 to R48) -/

/-- A demand brought into the range of an output (R41). -/
def Source.inRange (src : Source) (v : Int) : Int :=
  if src.discrete then (if v = 0 then 0 else 1) else clamp 0 1000 v

/-- The issued value of an output moved by the demand it holds, in SUPERVISE and LEAVING (R42, R43). -/
def Output.follow (o : Output) : Output :=
  if o.cfg.source.discrete then { o with issued := o.demand }
  else if o.demand < o.issued then { o with issued := o.demand }
  else if o.demand = o.issued then o
  else if o.rise then o
  else { o with issued := min o.demand (o.issued + o.cfg.ramp), rise := true }

/-- The issued value of an output moved by the demand it holds, in STANDBY: only a fall is taken (R45). -/
def Output.fallOnly (o : Output) : Output := if o.demand < o.issued then { o with issued := o.demand } else o

/-- The issued value of an output moved by the demand it holds, under the rule of the mode. -/
def Output.act (mode : Mode) (o : Output) : Output :=
  match mode with
  | .config => o
  | .standby => o.fallOnly
  | .supervise => o.follow
  | .leaving => o.follow

/-- One output on a demand update for its source: the demand is recorded (R41), and the issued value follows unless the fail-safe
state is set (R47). -/
def Output.update (mode : Mode) (failSafe : Bool) (v : Int) (o : Output) : Output :=
  let o := { o with demand := o.cfg.source.inRange v }
  if failSafe then o else o.act mode

/-- Every output in use that names the source takes the demand update; with no such output it is not recorded (R41). No demand
update arrives in CONFIG. -/
def Out.deliver (mode : Mode) (src : Source) (v : Int) (u : Out) : Out :=
  if mode = .config then u
  else { u with outs := u.outs.map fun o => if o.cfg.inUse ∧ o.cfg.source = src then o.update mode u.failSafe v else o }

/-- A job delivers a demand update (R41). OUT reads the mode directly (R53). -/
def deliver (src : Source) (v : Int) (s : State) : State := { s with out := s.out.deliver s.mbc.mode src v }

/-- BLIND set in SUPERVISE or LEAVING: the fail-safe state, every output in use at its fail-safe value, every rise mark
cleared (R46). -/
def Out.enterFailSafe (u : Out) : Out :=
  { outs := u.outs.map fun o => { o with issued := if o.cfg.inUse then o.cfg.failSafe else o.issued, rise := false }
    failSafe := true }

/-- The end of BLIND: the fail-safe state is left, and the demand of every output in use is acted on as if just delivered
(R48). -/
def Out.leaveFailSafe (mode : Mode) (u : Out) : Out :=
  if u.failSafe then { outs := u.outs.map fun o => if o.cfg.inUse then o.act mode else o, failSafe := false } else u

/-- A snapshot publication clears every rise mark (R44). -/
def Out.clearRise (u : Out) : Out := { u with outs := u.outs.map fun o => { o with rise := false } }

/-! ## The words of the capture ring -/

/-- The word at an offset; an unlisted word is 0 (R169). -/
def Memory.read : Memory → Nat → Word
  | [], _ => 0
  | (b, v) :: m, a => if b = a then v else Memory.read m a

/-- The list with a word put at an offset, in rising order; the word 0 is not listed. -/
def Memory.write : Memory → Nat → Word → Memory
  | [], a, v => if v = 0 then [] else [(a, v)]
  | (b, w) :: m, a, v =>
    if a < b then (if v = 0 then (b, w) :: m else (a, v) :: (b, w) :: m)
    else if a = b then (if v = 0 then m else (a, v) :: m)
    else (b, w) :: Memory.write m a v

/-- Every offset listed after `low` is above it, and so on, and no word listed is 0. -/
def Memory.wfFrom : Nat → Memory → Bool
  | _, [] => true
  | low, (a, v) :: m => decide (low ≤ a) && decide (v ≠ 0) && Memory.wfFrom (a + 1) m

/-- The canonical form of the ring: offsets strictly rising, no word equal to what an unlisted word reads as. -/
def Memory.wf (m : Memory) : Bool := Memory.wfFrom 0 m

/-- Words written at an offset and the offsets after it; after word 4095 writing goes on at word 0 (R164). -/
def Memory.writeRecord : Memory → Nat → List Word → Memory
  | m, _, [] => m
  | m, a, w :: ws => Memory.writeRecord (Memory.write m a w) ((a + 1) % 4096) ws

/-- Words read from an offset; a read that runs past word 4095 continues at word 0 (R168). -/
def Memory.readRecord (m : Memory) (a : Nat) : Nat → List Word
  | 0 => []
  | n + 1 => Memory.read m a :: Memory.readRecord m ((a + 1) % 4096) n

/-! ## Taking a request (R173, R174) -/

/-- What the owning block answers: the status and the payload of the reply. -/
structure Answer where
  status : Status
  payload : List Byte
  deriving DecidableEq, Repr

/-- How the owning block acts on the payload of a request of its kind. -/
abbrev Handler := List Byte → State → Answer × State

/-- A refusal with an empty payload changes no state (R174). -/
def refuse (st : Status) (s : State) : Answer × State := (⟨st, []⟩, s)

/-- An answer with a payload, and the state after the effect. -/
def answer (st : Status) (payload : List Byte) (s : State) : Answer × State := (⟨st, payload⟩, s)

/-- A good frame restarts the host timer with the duration of the TIMING record, in any mode but CONFIG (R67). -/
def restartHostTimer (s : State) : State :=
  { s with mbc := { s.mbc with
      hostTimer := if s.mbc.mode = .config then s.mbc.hostTimer else some (s.timerMs s.mbc.timing.hostMs) } }

/-- The flags byte of a reply: attention line, link state, overrun flag, as they stand when the reply is formed (R173),
which is after the effect (log 8). -/
def replyFlags (s : State) : Byte :=
  BitVec.ofInt 8 (flagByte [s.evq.attnLow, decide (s.mbc.link = .silent), s.cpt.overrun])

/-- The reply to a request (Table 11-2). -/
def replyTo (kind : Byte) (r : Request) (a : Answer) (s : State) : Reply :=
  { kind := kind ||| 0x80#8, tag := r.tag, status := a.status, flags := replyFlags s, payload := a.payload }

/-- The microseconds from a request to the start of its reply: a free value of at most 1 ms (R173; log 21). -/
def replyDelay (free : Nat) : Nat := min 1000 (Config.replyStart free)

/-- A request taken, with its reply, which goes out "byte after byte with no gaps" after its delay (R173). -/
def State.exchange (s : State) (kind : Byte) (r : Request) (p : Reply) : Exchange :=
  let delay := replyDelay s.free
  { kind := kind, request := r, reply := p, delay := delay, sending := ⟨s.now, delay + bytesUs s.straps p.bytes.length⟩ }

/-- The frame placed in the buffer with its reply going out; the overrun flag is cleared as it is copied into the reply (R173). -/
def fillBuffer (kind : Byte) (r : Request) (out : Answer × State) : State :=
  let s := out.2
  { s with cpt := { s.cpt with buffer := some (s.exchange kind r (replyTo kind r out.1 s)), overrun := false }
           free := s.free + 1 }

/-- The timer of the reply going out, which ends with its last byte (R173). -/
def State.replyTimer (s : State) : Option Timer := s.cpt.buffer.map fun e => e.sending

/-- The end of the last byte of the frame in progress (R171). -/
def CptRx.last : CptRx → Option Time
  | .hunt => none
  | .length last => some last
  | .body last _ _ => some last
  | .check last _ _ _ => some last

/-- The frame in progress, as a timer that ends when more than 2 ms have passed before the start of its next byte (R171;
log 41). -/
def State.gapTimer (s : State) : Option Timer := s.cpt.rx.last.map fun last => ⟨last, gapUs s.straps⟩

/-- A good frame has completed: the receiver is back in HUNT and the host timer has restarted, before its request is taken (R67,
R171). -/
def State.hears (s : State) : State := restartHostTimer { s with cpt := { s.cpt with rx := .hunt } }

/-- A good frame (R173): with the buffer full it is discarded and the overrun flag is set, otherwise its request is taken and
answered. -/
def goodFrame (kind : Byte) (handler : Handler) (r : Request) (s : State) : State :=
  if s.cpt.buffer.isSome then { s.hears with cpt := { s.hears.cpt with overrun := true } }
  else fillBuffer kind r (handler r.payload s.hears)

/-- While RST_N is low nothing reaches the part (R178); otherwise the effect takes place. -/
def live (s : State) (effect : State → State) : Host.Outcome State Fault Refusal :=
  .next (if s.held then s else effect s)

/-- A range first..first+count-1 read by a request, refused with BAD_INDEX when it leaves 0..size-1 and with BAD_VALUE when the
count is outside 1..most (the order of checks: log 10). -/
def rangeCheck (size most first count : Nat) : Option Status :=
  if size ≤ first ∨ size < first + count then some .badIndex
  else if count = 0 ∨ most < count then some .badValue
  else none

/-- A number as an index, when it is in range. -/
def index? (n : Nat) (x : Int) : Option (Fin n) := if h : 0 ≤ x ∧ x.toNat < n then some ⟨x.toNat, h.2⟩ else none

end Sys2Proof.Machine
end

