-- ==== Sys2Proof/Machine/Operands.lean ====
section
/-! DEFINITION. The records of the sixteen tables as TABLE_WRITE and TABLE_READ carry them. A reader answers none when a field
lies outside its range or a reserved bit is set (BAD_VALUE); it is given a record of the right length. -/

namespace Sys2Proof.Machine

/-- A position from its frame and slot bytes. -/
def Position.read (b : List Byte) (i : Nat) : Option Position :=
  match index? 6 (u8 b i), index? 28 (u8 b (i + 1)) with
  | some f, some s => some ⟨f, s⟩
  | _, _ => none

/-- The frame and slot bytes of a position. -/
def Position.bytes (p : Position) : List Byte := put8 p.frame.val ++ put8 p.slot.val

/-- A channel, point or well byte. -/
def readIndex (n : Nat) (b : List Byte) (i : Nat) : Option (Fin n) := index? n (u8 b i)

/-- A channel or point byte that may be 0xFF for none. -/
def readOptIndex (n : Nat) (b : List Byte) (i : Nat) : Option (Option (Fin n)) :=
  if u8 b i = 0xFF then some none else (readIndex n b i).map some

/-- The byte of an index that may be none. -/
def putOptIndex {n : Nat} : Option (Fin n) → List Byte
  | none => put8 0xFF
  | some i => put8 i.val

/-- A byte that is 0 or 1. -/
def readFlag (b : List Byte) (i : Nat) : Option Bool :=
  if u8 b i = 0 then some false else if u8 b i = 1 then some true else none

/-- LOOP, 6 bytes (Table 11-6, R3). -/
def LoopRecord.read (b : List Byte) : Option LoopRecord := do
  let rate ← readIndex 4 b 0
  let auto ← readFlag b 1
  if (u8 b 2 = 3 ∨ u8 b 2 = 4) ∧ (u8 b 3 = 8 ∨ u8 b 3 = 10) ∧ within 100 10000 (u16 b 4) then
    some { rate := rate, autoRate := auto, lossCount := (u8 b 2).toNat, counterWidth := (u8 b 3).toNat,
           blindMs := (u16 b 4).toNat }
  else none

def LoopRecord.bytes (r : LoopRecord) : List Byte :=
  put8 r.rate.val ++ put8 (bit r.autoRate) ++ put8 r.lossCount ++ put8 r.counterWidth ++ put16 r.blindMs

/-- CHANNEL, 19 bytes (Table 2-3, R22). -/
def ChannelRecord.read (b : List Byte) : Option ChannelRecord := do
  let pos ← Position.read b 1
  let kind ← Kind.ofCode (u8 b 3)
  let lo := s32 b 10
  let hi := s32 b 14
  if u8 b 0 ≤ 3 ∧ lo < hi ∧ within kind.low kind.high lo ∧ within kind.low kind.high hi ∧ 1 ≤ u8 b 18 then
    some { inUse := (byteAt b 0).getLsbD 0, pos := pos, kind := kind, signedRaw := (byteAt b 0).getLsbD 1, gain := s16 b 4,
           offset := s32 b 6, lo := lo, hi := hi, staleLimit := (u8 b 18).toNat }
  else none

def ChannelRecord.bytes (r : ChannelRecord) : List Byte :=
  put8 (flagByte [r.inUse, r.signedRaw]) ++ r.pos.bytes ++ put8 r.kind.code ++ put16 r.gain ++ put32 r.offset ++ put32 r.lo
    ++ put32 r.hi ++ put8 r.staleLimit

/-- A source from its code and index (Table 3-2, R40). -/
def Source.ofCode (code idx : Int) : Option Source :=
  if code = 0 then (index? 16 idx).map .wellRun
  else if code = 1 then (index? 16 idx).map .wellSpeed
  else if code = 2 then (if idx = 0 then some .heatValve else none)
  else if code = 3 then (if idx = 0 then some .bypassValve else none)
  else if code = 4 then (if idx = 0 then some .stopValve else none)
  else if code = 5 then (index? 8 idx).map .direct
  else none

/-- The greatest fail-safe value a source allows (R40): a STOP_VALVE output closes on loss of the loop. -/
def Source.failSafeMax (s : Source) : Int :=
  match s with
  | .stopValve => 0
  | .wellRun _ => 1
  | _ => 1000

/-- OUTPUT, 9 bytes (Table 3-3, R40). -/
def OutputRecord.read (b : List Byte) : Option OutputRecord := do
  let inUse ← readFlag b 0
  let pos ← Position.read b 1
  let source ← Source.ofCode (u8 b 3) (u8 b 4)
  if within 1 1000 (u16 b 5) ∧ u16 b 7 ≤ source.failSafeMax then
    some { inUse := inUse, pos := pos, source := source, ramp := u16 b 5, failSafe := u16 b 7 }
  else none

def OutputRecord.bytes (r : OutputRecord) : List Byte :=
  put8 (bit r.inUse) ++ r.pos.bytes ++ put8 r.source.code ++ put8 r.source.index ++ put16 r.ramp ++ put16 r.failSafe

/-- A role from its code (Table 5-3). -/
def Role.ofCode (n : Int) : Option Role :=
  if n = 0 then some .unused else if n = 1 then some .production else if n = 2 then some .reinjection else none

/-- WELL, 29 bytes (Table 5-3, R72). -/
def WellRecord.read (b : List Byte) : Option WellRecord := do
  let role ← Role.ofCode (u8 b 0)
  let flow ← readIndex 96 b 1
  let intake ← readIndex 96 b 2
  let motor ← readOptIndex 96 b 3
  let point ← readOptIndex 8 b 26
  if u16 b 4 ≤ 1000 ∧ u32 b 6 ≤ 200000 ∧ within 1000 600000 (u32 b 10) ∧ u32 b 14 ≤ 200000 ∧ 1 ≤ u8 b 18 ∧ within 2 4 (u8 b 19)
      ∧ within 1 1440 (u16 b 20) ∧ u32 b 22 ≤ 200000 ∧ u16 b 27 ≤ 1000 then
    some { role := role, flow := flow, intake := intake, motor := motor, startSpeed := u16 b 4, minFlow := u32 b 6,
           startMs := (u32 b 10).toNat, intakeLimit := u32 b 14, intakePersistence := (u8 b 18).toNat,
           tripLimit := (u8 b 19).toNat, windowMin := (u16 b 20).toNat, rated := u32 b 22, point := point, derate := u16 b 27 }
  else none

def WellRecord.bytes (r : WellRecord) : List Byte :=
  put8 r.role.code ++ put8 r.flow.val ++ put8 r.intake.val ++ putOptIndex r.motor ++ put16 r.startSpeed ++ put32 r.minFlow
    ++ put32 r.startMs ++ put32 r.intakeLimit ++ put8 r.intakePersistence ++ put8 r.tripLimit ++ put16 r.windowMin
    ++ put32 r.rated ++ putOptIndex r.point ++ put16 r.derate

/-- PLANT, 15 bytes (Table 5-3, R73). -/
def PlantRecord.read (b : List Byte) : Option PlantRecord := do
  let check ← readFlag b 8
  let brine ← readOptIndex 96 b 9
  let steam ← readOptIndex 96 b 10
  if u16 b 0 ≤ 1000 ∧ within 1 200 (u16 b 2) ∧ within 1 200 (u16 b 4) ∧ u16 b 6 ≤ 500 ∧ u32 b 11 ≤ 600000 then
    some { ceilingMin := u16 b 0, runback := u16 b 2, recover := u16 b 4, margin := u16 b 6, check := check, brine := brine,
           steam := steam, staggerMs := (u32 b 11).toNat }
  else none

def PlantRecord.bytes (r : PlantRecord) : List Byte :=
  put16 r.ceilingMin ++ put16 r.runback ++ put16 r.recover ++ put16 r.margin ++ put8 (bit r.check) ++ putOptIndex r.brine
    ++ putOptIndex r.steam ++ put32 r.staggerMs

/-- TURBINE, 41 bytes (Table 6-2, R99). -/
def TurbineRecord.read (b : List Byte) : Option TurbineRecord := do
  let speed ← readIndex 96 b 0
  let lube ← readIndex 96 b 3
  let gear ← readIndex 96 b 15
  let purity ← readIndex 96 b 22
  let field ← readOptIndex 96 b 34
  if within 1 60000 (u16 b 1) ∧ u32 b 4 ≤ 200000 ∧ 1 ≤ u8 b 8 ∧ within (u32 b 4) 200000 (u32 b 9) ∧ u16 b 13 ≤ 600
      ∧ u32 b 16 ≤ 86400 ∧ u16 b 20 ≤ 60000 ∧ u32 b 23 ≤ 1000000 ∧ 1 ≤ u8 b 27 ∧ u32 b 28 ≤ u32 b 23 ∧ u16 b 32 ≤ 3600
      ∧ u32 b 35 ≤ 200000 ∧ u16 b 39 ≤ 1000 then
    some { speed := speed, tripSpeed := u16 b 1, lube := lube, lubeTrip := u32 b 4, lubePersistence := (u8 b 8).toNat,
           lubeRun := u32 b 9, lubeHoldS := (u16 b 13).toNat, gear := gear, warmS := (u32 b 16).toNat, turningSpeed := u16 b 20,
           purity := purity, purityTrip := u32 b 23, purityPersistence := (u8 b 27).toNat, purityStart := u32 b 28,
           purityHoldS := (u16 b 32).toNat, field := field, bypassCapacity := u32 b 35, bypassPosition := u16 b 39 }
  else none

def TurbineRecord.bytes (r : TurbineRecord) : List Byte :=
  put8 r.speed.val ++ put16 r.tripSpeed ++ put8 r.lube.val ++ put32 r.lubeTrip ++ put8 r.lubePersistence ++ put32 r.lubeRun
    ++ put16 r.lubeHoldS ++ put8 r.gear.val ++ put32 r.warmS ++ put16 r.turningSpeed ++ put8 r.purity.val ++ put32 r.purityTrip
    ++ put8 r.purityPersistence ++ put32 r.purityStart ++ put16 r.purityHoldS ++ putOptIndex r.field ++ put32 r.bypassCapacity
    ++ put16 r.bypassPosition

/-- HEATING, 36 bytes (Table 7-2, R119). -/
def HeatingRecord.read (b : List Byte) : Option HeatingRecord := do
  let enable ← readFlag b 0
  let outdoor ← readIndex 96 b 1
  let ret ← readIndex 96 b 2
  let supply ← readIndex 96 b 3
  let flow ← readIndex 96 b 4
  let inlet ← readIndex 96 b 5
  let outlet ← readIndex 96 b 6
  let brine ← readIndex 96 b 7
  let point ← readOptIndex 8 b 24
  if within 3000 5000 (u16 b 8) ∧ within 3000 5000 (u16 b 10) ∧ within 1 200000 (u32 b 12) ∧ within (-2731) 20000 (s16 b 16)
      ∧ within (-2731) 20000 (s16 b 18) ∧ s16 b 16 ≤ s16 b 18 ∧ within (-2731) 20000 (s16 b 20)
      ∧ within (-2731) 20000 (s16 b 22) ∧ u16 b 26 ≤ 500 ∧ within 1 1000 (u16 b 28) ∧ 1 ≤ u8 b 30 ∧ u32 b 31 ≤ 200000
      ∧ 1 ≤ u8 b 35 then
    some { enable := enable, outdoor := outdoor, districtReturn := ret, districtSupply := supply, districtFlow := flow,
           brineInlet := inlet, brineOutlet := outlet, brineFlow := brine, cpD := u16 b 8, cpB := u16 b 10, qRated := u32 b 12,
           setMin := s16 b 16, setMax := s16 b 18, absFloor := s16 b 20, fallFloor := s16 b 22, floorPoint := point,
           floorHold := (u8 b 25).toNat, guardBand := u16 b 26, guardStep := u16 b 28, guardPersistence := (u8 b 30).toNat,
           deficitKw := u32 b 31, deficitPersistence := (u8 b 35).toNat }
  else none

def HeatingRecord.bytes (r : HeatingRecord) : List Byte :=
  put8 (bit r.enable) ++ put8 r.outdoor.val ++ put8 r.districtReturn.val ++ put8 r.districtSupply.val ++ put8 r.districtFlow.val
    ++ put8 r.brineInlet.val ++ put8 r.brineOutlet.val ++ put8 r.brineFlow.val ++ put16 r.cpD ++ put16 r.cpB ++ put32 r.qRated
    ++ put16 r.setMin ++ put16 r.setMax ++ put16 r.absFloor ++ put16 r.fallFloor ++ putOptIndex r.floorPoint
    ++ put8 r.floorHold ++ put16 r.guardBand ++ put16 r.guardStep ++ put8 r.guardPersistence ++ put32 r.deficitKw
    ++ put8 r.deficitPersistence

/-- POINT, 15 bytes (Table 8-3, R136). -/
def PointRecord.read (b : List Byte) : Option PointRecord := do
  let temp ← readIndex 96 b 1
  let silica ← readOptIndex 96 b 2
  let curve ← readIndex 4 b 3
  let lab := (byteAt b 0).getLsbD 1
  if u8 b 0 ≤ 7 ∧ (silica.isSome ∨ lab) ∧ within 500 5000 (u16 b 4) ∧ within 500 5000 (u16 b 6) ∧ u16 b 4 ≤ u16 b 6
      ∧ within 500 5000 (u16 b 8) ∧ u16 b 10 ≤ 500 ∧ 1 ≤ u8 b 12 ∧ 1 ≤ u8 b 13 ∧ 1 ≤ u8 b 14 then
    some { inUse := (byteAt b 0).getLsbD 0, temp := temp, lab := lab, silica := silica, unity := (byteAt b 0).getLsbD 2,
           curve := curve, warn := u16 b 4, alarm := u16 b 6, limit := u16 b 8, hysteresis := u16 b 10,
           alarmPersistence := (u8 b 12).toNat, clearPersistence := (u8 b 13).toNat, holdLimit := (u8 b 14).toNat }
  else none

def PointRecord.bytes (r : PointRecord) : List Byte :=
  put8 (flagByte [r.inUse, r.lab, r.unity]) ++ put8 r.temp.val ++ putOptIndex r.silica ++ put8 r.curve.val ++ put16 r.warn
    ++ put16 r.alarm ++ put16 r.limit ++ put16 r.hysteresis ++ put8 r.alarmPersistence ++ put8 r.clearPersistence
    ++ put8 r.holdLimit

/-- n points of 4 bytes from byte i: the first number signed, the second as the reader given says. -/
def readPoints (y : List Byte → Nat → Int) (b : List Byte) : Nat → Nat → List CurvePoint
  | _, 0 => []
  | i, n + 1 => ⟨s16 b i, y b (i + 2)⟩ :: readPoints y b (i + 4) n

/-- The bytes of a curve: the count and the points (R120, Table 8-1). -/
def curveBytes (ps : List CurvePoint) : List Byte :=
  put8 ps.length ++ ps.flatMap fun p => put16 p.x ++ put16 p.y

/-- The first numbers strictly increase from one point to the next. -/
def strictlyRising : List CurvePoint → Bool
  | [] => true
  | [_] => true
  | p :: q :: rest => decide (p.x < q.x) && strictlyRising (q :: rest)

/-- No second number is lower than the one before it. -/
def notFalling : List CurvePoint → Bool
  | [] => true
  | [_] => true
  | p :: q :: rest => decide (p.y ≤ q.y) && notFalling (q :: rest)

/-- HEATCURVE, 1 + 4n bytes (R120). -/
def readHeatCurve (b : List Byte) : Option (List CurvePoint) :=
  let ps := readPoints s16 b 1 (u8 b 0).toNat
  if within 2 8 (u8 b 0) ∧ ps.all (fun p => within (-2731) 20000 p.x && within (-2731) 20000 p.y) ∧ strictlyRising ps then some ps
  else none

/-- CURVE, 1 + 4n bytes (R135). -/
def readSolubilityCurve (b : List Byte) : Option (List CurvePoint) :=
  let ps := readPoints u16 b 1 (u8 b 0).toNat
  if within 2 12 (u8 b 0) ∧ ps.all (fun p => within (-2731) 20000 p.x) ∧ strictlyRising ps ∧ notFalling ps then some ps else none

/-- PERMIT, 1 byte (R79). -/
def Permit.read (b : List Byte) : Option Permit :=
  if u8 b 0 ≤ 15 then
    some ⟨(byteAt b 0).getLsbD 0, (byteAt b 0).getLsbD 1, (byteAt b 0).getLsbD 2, (byteAt b 0).getLsbD 3⟩
  else none

/-- The four flags of a PERMIT entry, bit 0 first (R79). -/
def Permit.flags (p : Permit) : List Bool := [p.start, p.clear, p.serviceOut, p.serviceIn]

/-- A CLASS write, 1 byte: the two enables; the summary flag is not written (R157). -/
def ClassEntry.read (old : ClassEntry) (b : List Byte) : Option ClassEntry :=
  if u8 b 0 ≤ 3 then some { old with log := (byteAt b 0).getLsbD 0, attend := (byteAt b 0).getLsbD 1 } else none

/-- The contents of a bank, 54 bytes from byte i (Table 4-7). -/
def Bank.readAt (b : List Byte) (i : Nat) : Bank :=
  { speeds := Vector.ofFn fun k => u16 b (i + 2 * k.val), heatCeiling := u16 b (i + 32), shift := s16 b (i + 34),
    bypass := u16 b (i + 36), direct := Vector.ofFn fun k => u16 b (i + 38 + 2 * k.val) }

/-- Every target in 0..1000 and the shift in −200..+200 (Table 4-6). -/
def Bank.inRange (k : Bank) : Bool :=
  k.speeds.toList.all (within 0 1000) && within 0 1000 k.heatCeiling && within (-200) 200 k.shift && within 0 1000 k.bypass
    && k.direct.toList.all (within 0 1000)

/-- FAILSAFE, 54 bytes (R66). -/
def readFailsafe (b : List Byte) : Option Bank :=
  let k := Bank.readAt b 0
  if k.inRange then some k else none

/-- The contents of a bank (Table 4-7). -/
def Bank.bytes (k : Bank) : List Byte :=
  k.speeds.toList.flatMap put16 ++ put16 k.heatCeiling ++ put16 k.shift ++ put16 k.bypass ++ k.direct.toList.flatMap put16

/-- A clock resolution from its code (Table 9-1). -/
def Resolution.ofCode (n : Int) : Option Resolution :=
  if n = 0 then some .ms1 else if n = 1 then some .ms10 else if n = 2 then some .ms100 else none

/-- The code of a clock resolution (Table 9-1). -/
def Resolution.code : Resolution → Int
  | .ms1 => 0
  | .ms10 => 1
  | .ms100 => 2

/-- The clock unit in ms (Table 9-1). -/
def Resolution.ms : Resolution → Nat
  | .ms1 => 1
  | .ms10 => 10
  | .ms100 => 100

/-- TIMING, 9 bytes (Table 9-1, R67, R154). -/
def TimingRecord.read (b : List Byte) : Option TimingRecord := do
  let res ← Resolution.ofCode (u8 b 2)
  if within 100 60000 (u16 b 0) ∧ within 10 600 (u16 b 3) ∧ u32 b 5 ≤ 3600000 then
    some { hostMs := (u16 b 0).toNat, resolution := res, syncHoldS := (u16 b 3).toNat, stepMs := (u32 b 5).toNat }
  else none

def TimingRecord.bytes (r : TimingRecord) : List Byte :=
  put16 r.hostMs ++ put8 r.resolution.code ++ put16 r.syncHoldS ++ put32 r.stepMs

/-- A capture source from its code and index (Table 10-2). -/
def CaptureSource.ofCode (code idx : Int) : Option CaptureSource :=
  if code = 0 then (index? 96 idx).map .channel
  else if code = 1 then (index? 8 idx).map .si
  else if code = 2 then (index? 8 idx).map .floor
  else if code = 3 then (if idx = 0 then some .pceil else none)
  else if code = 4 then (if idx = 0 then some .heatdem else none)
  else none

/-- The two bytes of a capture source (Table 10-1). -/
def CaptureSource.bytes : CaptureSource → List Byte
  | .channel c => put8 0 ++ put8 c.val
  | .si p => put8 1 ++ put8 p.val
  | .floor p => put8 2 ++ put8 p.val
  | .pceil => put8 3 ++ put8 0
  | .heatdem => put8 4 ++ put8 0

/-- n capture sources from byte i. -/
def readSources (b : List Byte) : Nat → Nat → Option (List CaptureSource)
  | _, 0 => some []
  | i, n + 1 =>
    match CaptureSource.ofCode (u8 b i) (u8 b (i + 1)), readSources b (i + 2) n with
    | some c, some cs => some (c :: cs)
    | _, _ => none

/-- A trigger from its code (Table 10-1). -/
def Trigger.ofCode (n : Int) : Option Trigger :=
  if n = 0 then some .none else if n = 1 then some .scaleAlarm else if n = 2 then some .turbineTrip
  else if n = 3 then some .any else Option.none

/-- The code of a trigger (Table 10-1). -/
def Trigger.code : Trigger → Int
  | .none => 0
  | .scaleAlarm => 1
  | .turbineTrip => 2
  | .any => 3

/-- CAPTURE, 4 + 2n bytes (Table 10-1, R163). -/
def CaptureRecord.read (b : List Byte) : Option CaptureRecord := do
  let sources ← readSources b 4 (u8 b 0).toNat
  let trigger ← Trigger.ofCode (u8 b 2)
  if within 1 16 (u8 b 0) ∧ 1 ≤ u8 b 1 then
    some { sources := sources, decimation := (u8 b 1).toNat, trigger := trigger, postCount := (u8 b 3).toNat }
  else none

def CaptureRecord.bytes (r : CaptureRecord) : List Byte :=
  put8 r.sources.length ++ put8 r.decimation ++ put8 r.trigger.code ++ put8 r.postCount ++ r.sources.flatMap CaptureSource.bytes

end Sys2Proof.Machine
end

