-- ==== Sys2Proof/Machine/Clock.lean ====
section
/-! DEFINITION. CLK and EVQ (chapter 9): the plant clock, its setting and synchronization, fetching events, STATUS. -/

namespace Sys2Proof.Machine

/-- One clock unit in microseconds (R154). -/
def State.clockUnit (s : State) : Nat := s.mbc.timing.resolution.ms * 1000

/-- The running period of the clock as a timer (R154). -/
def State.clockTimer (s : State) : Timer := ⟨s.clk.period, s.clockUnit⟩

/-- The plant clock advances by one clock unit; its wrap raises ROLLOVER (R154). -/
def clockTick (s : State) : State :=
  let t := s.clockTimer
  let s := s.reachEnd t
  let s := { s with clk := { s.clk with count := s.clk.count + 1, period := t.endsAt } }
  raiseIf (decide (s.clk.count = 0)) .clockRollover 0 0 s

/-- The count set to a value and the period restarted (R155, R156). -/
def setClock (v : BitVec 32) (s : State) : State := { s with clk := { s.clk with count := v, period := s.now } }

/-- The difference from the count to a value, modulo 2^32, read as a signed number (R155, R156). -/
def Clk.step (c : Clk) (v : BitVec 32) : Int := (v - c.count).toInt

/-- TIME_SET (R155). -/
def timeSet : Handler := fun p s =>
  match p with
  | [_, _, _, _] => answer .ok (put32 (u32 p 0)) (raise .clockSet 0 (s.clk.step (word32 p 0)) (setClock (word32 p 0) s))
  | _ => refuse .badLength s

/-- Whole seconds since the last A sync, at most 255, and 255 when there was none (R156). -/
def sinceA (s : State) : Int :=
  match s.clk.lastA with
  | none => 255
  | some t => (min 255 (elapsed t s.now / 1000000) : Nat)

/-- The reply of every TIME_SYNC (R156). -/
def syncAnswer (st : Status) (s : State) : Answer × State :=
  answer st (put32 s.clk.count.toNat ++ put8 s.clk.source.code ++ put8 (sinceA s)) s

/-- A sync from a source other than NONE taken: the clock set, the source recorded, SOURCE_B and STEP raised in this order, both
stamped with the new count (R156). -/
def takeSync (src : SyncSource) (v : BitVec 32) (s : State) : State :=
  let d := s.clk.step v
  let fromB := decide (src = .b ∧ s.clk.source ≠ .b)
  let s := setClock v s
  let s := { s with clk := { s.clk with source := src } }
  let s := raiseIf fromB .clockSourceB 0 0 s
  raiseIf (decide (s.mbc.timing.stepMs < d.natAbs * s.mbc.timing.resolution.ms)) .clockStep (if src = .b then 1 else 0) d s

/-- A source A sync is always taken (R156). -/
def syncA (v : BitVec 32) (s : State) : State := takeSync .a v { s with clk := { s.clk with lastA := some s.now } }

/-- No source A sync has been taken within the sync hold (R156). -/
def State.syncFree (s : State) : Bool :=
  match s.clk.lastA with
  | none => true
  | some t => decide (s.mbc.timing.syncHoldS * 1000000 < elapsed t s.now)

/-- TIME_SYNC (R156). -/
def timeSync : Handler := fun p s =>
  match p with
  | [src, _, _, _, _] =>
    if src = 0 then syncAnswer .ok (syncA (word32 p 1) s)
    else if src = 1 then
      if s.syncFree then syncAnswer .ok (takeSync .b (word32 p 1) s) else syncAnswer .wrongState s
    else syncAnswer .badValue s
  | _ => syncAnswer .badLength s

/-- The queue after its oldest entries leave it: the overrun flag cleared, the line judged again (R159, R160). -/
def Evq.fetch (q : Evq) (n : Nat) : Evq := { q with queue := q.queue.drop n, overrun := false }.judge

/-- FETCH_EVENTS (R159). -/
def fetchEvents : Handler := fun p s =>
  match p with
  | [n] =>
    if n = 0 ∨ 8 < n.toNat then refuse .badValue s
    else
      let taken := s.evq.queue.take n.toNat
      answer .ok (put8 taken.length ++ put8 (s.evq.queue.length - taken.length : Nat) ++ put8 (bit s.evq.overrun)
        ++ taken.flatMap Entry.bytes) { s with evq := s.evq.fetch n.toNat }
  | _ => refuse .badLength s

/-- The summary flags of the nine classes, class 0 first. -/
def Evq.summary (q : Evq) : List Bool := q.classes.toList.map ClassEntry.summary

/-- Every summary flag cleared (R161). -/
def Evq.clearSummary (q : Evq) : Evq := { q with classes := q.classes.map fun c => { c with summary := false } }

/-- The ten bytes of STATUS (R161). -/
def statusBytes (s : State) : List Byte :=
  put16 (flagByte s.evq.summary) ++ put8 s.mbc.mode.code
    ++ put8 (flagByte [decide (s.mbc.link = .silent), s.evq.attnLow, s.evq.overrun, s.lif.blind]) ++ put8 s.evq.queue.length
    ++ put32 s.clk.count.toNat ++ put8 s.clk.source.code

/-- STATUS (R161). -/
def status : Handler := fun p s =>
  match p with
  | [o] =>
    if o = 0 then answer .ok (statusBytes s) s
    else if o = 1 then answer .ok (statusBytes s) { s with evq := s.evq.clearSummary }
    else refuse .badValue s
  | _ => refuse .badLength s

def execTimeSet (r : Request) (s : State) : Host.Outcome State Fault Refusal := live s (goodFrame 0x1E timeSet r)
def execTimeSyncA (r : Request) (s : State) : Host.Outcome State Fault Refusal := live s (goodFrame 0x1F timeSync r)
def execTimeSyncB (r : Request) (s : State) : Host.Outcome State Fault Refusal := live s (goodFrame 0x1F timeSync r)
def execFetchEvents (r : Request) (s : State) : Host.Outcome State Fault Refusal := live s (goodFrame 0x1B fetchEvents r)
def execStatus (r : Request) (s : State) : Host.Outcome State Fault Refusal := live s (goodFrame 0x02 status r)
def execStatusClear (r : Request) (s : State) : Host.Outcome State Fault Refusal := live s (goodFrame 0x02 status r)
def execClockAdvance (s : State) : Host.Outcome State Fault Refusal := live s clockTick

end Sys2Proof.Machine
end

