-- ==== Sys2Proof/Machine/Turbine.lean ====
section
/-! DEFINITION. TGD, the turbine guard (chapter 6): causes, trips, the trip cap, the permissive chain, and its commands. -/

namespace Sys2Proof.Machine

/-- The reading of a channel in a view. -/
def View.reading (v : View) (c : ChannelNo) : Reading := v.chans[c]

/-- R118: the runtime state of TGD after each reset at a time-base value, the TURBINE record kept. -/
def Tgd.reset (g : Tgd) (now : Time) (v : View) : Tgd :=
  { g with guard := .tripped, first := some .restarted, causes := [.restarted], tripStamp := now, tripCount := 0, cap := none,
           lubeCount := 0, purityCount := 0, chain := .init, stopDemand := 0, bypassDemand := 0, view := v }

/-- The BYPASS_VALVE demand: the ACTIVE bank's bypass target as the view shows it, and while TRIPPED at least the bypass trip
position (R106). -/
def Tgd.bypassFor (g : Tgd) : Int :=
  match g.guard with
  | .armed => g.view.active.bypass
  | .tripped => max g.view.active.bypass g.cfg.bypassPosition

/-- TGD delivers a STOP_VALVE demand update. -/
def deliverStop (v : Int) (s : State) : State := deliver .stopValve v { s with tgd := { s.tgd with stopDemand := v } }

/-- TGD delivers a BYPASS_VALVE demand update for the state it is in (R106). -/
def deliverBypass (s : State) : State :=
  deliver .bypassValve s.tgd.bypassFor { s with tgd := { s.tgd with bypassDemand := s.tgd.bypassFor } }

/-- The trip cap that a trip puts in force, from the separator steam flow in TGD's view (R107). -/
def tripCap (plant : PlantRecord) (capacity : Int) (v : View) : Option Cap :=
  match plant.steam with
  | none => none
  | some c =>
    let f := v.reading c
    if !f.usable then some ⟨plant.ceilingMin, true⟩
    else if f.value ≤ capacity then none
    else some ⟨max (floorDiv (capacity * 1000) f.value) plant.ceilingMin, false⟩

/-- The trip cap set at a move to TRIPPED; one put in force raises CAP_ON (R107). -/
def setCap (s : State) : State :=
  let cap := tripCap s.wsv.plant s.tgd.cfg.bypassCapacity s.tgd.view
  let s := { s with tgd := { s.tgd with cap := cap } }
  match cap with
  | none => s
  | some c => raise .turbCapOn (bit c.stale) c.value s

/-- The move from ARMED to TRIPPED: stop valve, bypass, trip cap, in this order (R105). -/
def tripActs (s : State) : State := setCap (deliverBypass (deliverStop 0 s))

/-- The parameter of TRIP and CAUSE: the cause code, and bit 8 when it was taken on a STALE channel (R104). -/
def causeParam (c : Cause) (stale : Bool) : Int := c.code + 256 * bit stale

/-- A cause that holds is taken (R104). -/
def takeCause (c : Cause) (stale : Bool) (s : State) : State :=
  match s.tgd.guard with
  | .armed =>
    tripActs (raise .turbTrip 0 (causeParam c stale)
      { s with tgd := { s.tgd with guard := .tripped, first := some c, causes := [c], tripStamp := s.now,
                                   tripCount := s.tgd.tripCount + 1 } })
  | .tripped =>
    if c ∈ s.tgd.causes then s
    else raise .turbCause 0 (causeParam c stale) { s with tgd := { s.tgd with causes := s.tgd.causes ++ [c] } }

/-- A persistence count: a usable reading counts or clears it, a STALE one leaves it (R102). -/
def persist (r : Reading) (beyond : Bool) (n : Nat) : Nat :=
  if !r.usable then n else if beyond then min 255 (n + 1) else 0

/-- The lube and purity counts updated from a view (R102). -/
def Tgd.count (g : Tgd) (v : View) : Tgd :=
  let lube := v.reading g.cfg.lube
  let purity := v.reading g.cfg.purity
  { g with lubeCount := persist lube (decide (lube.value < g.cfg.lubeTrip)) g.lubeCount
           purityCount := persist purity (decide (g.cfg.purityTrip < purity.value)) g.purityCount }

/-- The field trip channel reads 1 and is usable (Table 6-3). -/
def Tgd.fieldTrip (g : Tgd) (v : View) : Bool :=
  match g.cfg.field with
  | none => false
  | some c => (v.reading c).holds fun x => decide (x = 1)

/-- The causes that hold at a snapshot, in code order, each with its STALE bit (R102, R103). -/
def Tgd.holding (g : Tgd) (v : View) : List (Cause × Bool) :=
  let speed := v.reading g.cfg.speed
  let lube := v.reading g.cfg.lube
  let purity := v.reading g.cfg.purity
  (if !speed.usable then [(.overspeed, true)] else if g.cfg.tripSpeed ≤ speed.value then [(.overspeed, false)] else [])
    ++ (if !lube.usable then [(.lubeLow, true)] else if g.cfg.lubePersistence ≤ g.lubeCount then [(.lubeLow, false)] else [])
    ++ (if !purity.usable then [(.purityHigh, true)]
        else if g.cfg.purityPersistence ≤ g.purityCount then [(.purityHigh, false)] else [])
    ++ (if g.fieldTrip v then [(.field, false)] else [])

/-- A cause that holds at a snapshot is taken, with its STALE bit. -/
def takeHolding (s : State) (c : Cause × Bool) : State := takeCause c.1 c.2 s

/-- Phase 1: the counts, then every cause that holds, in code order (R101, R104). -/
def tgdCauses (s : State) : State :=
  let s := { s with tgd := s.tgd.count s.tgd.view }
  (s.tgd.holding s.tgd.view).foldl takeHolding s

/-! ## The permissive chain (R108 to R111) -/

/-- The receiver is LOCKED (R108), and a snapshot has been published since it entered LOCKED, so that the snapshot processed is not
one published before a loss of lock (R111): the continuity mark of R14 says so (log 38). -/
def Lif.regained (l : Lif) : Bool := decide (l.rx = .locked) && l.continuous

/-- S1 LOOP: the speed, lube pressure, steam purity and turning gear channels are all usable (Table 6-4), and the receiver is LOCKED
(R108, R111). -/
def Tgd.loopMet (g : Tgd) (l : Lif) (v : View) : Bool :=
  l.regained && (v.reading g.cfg.speed).usable && (v.reading g.cfg.lube).usable && (v.reading g.cfg.purity).usable
    && (v.reading g.cfg.gear).usable

/-- S2 LUBE (Table 6-4). -/
def Tgd.lubeMet (g : Tgd) (v : View) : Bool := (v.reading g.cfg.lube).holds fun x => decide (g.cfg.lubeRun ≤ x)

/-- S3 TURNING (Table 6-4). -/
def Tgd.turningMet (g : Tgd) (v : View) : Bool :=
  (v.reading g.cfg.gear).holds (fun x => decide (x = 1))
    || (v.reading g.cfg.speed).holds (fun x => decide (g.cfg.turningSpeed ≤ x))

/-- S4 PURITY (Table 6-4). -/
def Tgd.purityMet (g : Tgd) (v : View) : Bool := (v.reading g.cfg.purity).holds fun x => decide (x ≤ g.cfg.purityStart)

/-- What the walk over the steps carries: whether every earlier step is COMPLETE, whether a step was lost, the events. -/
structure Walk where
  allComplete : Bool
  lost : Bool
  events : List Report
  deriving DecidableEq, Repr

/-- One step of the walk (R109, R110): the step's new state, and what the walk carries on. -/
def walkStep (now : Time) (n : Int) (met : Bool) (holdUs : Nat) (st : StepState) (w : Walk) : StepState × Walk :=
  if w.lost then (.incomplete, w)
  else match st with
    | .incomplete =>
      if met && w.allComplete then
        if holdUs = 0 then (.complete, { w with events := w.events ++ [⟨.turbStepDone, n, 0⟩] })
        else (.timing ⟨now, holdUs⟩, { w with allComplete := false })
      else (.incomplete, { w with allComplete := false })
    | .timing t =>
      if met then (.timing t, { w with allComplete := false })
      else (.incomplete, { w with lost := true, events := w.events ++ [⟨.turbStepLost, n, 1⟩] })
    | .complete =>
      if met then (.complete, w)
      else (.incomplete, { w with lost := true, events := w.events ++ [⟨.turbStepLost, n, 2⟩] })

/-- The walk from S1 to S5 over a view (R109): the chain after it and the events. S5 has no condition of its own and is lost with
an earlier step. A hold timer starts at the moment of the walk (log 36). -/
def Tgd.walk (g : Tgd) (l : Lif) (now : Time) (v : View) : Chain × List Report :=
  let w1 := walkStep now 1 (g.loopMet l v) 0 g.chain.s1 ⟨true, false, []⟩
  let w2 := walkStep now 2 (g.lubeMet v) (g.cfg.lubeHoldS * 1000000) g.chain.s2 w1.2
  let w3 := walkStep now 3 (g.turningMet v) (g.cfg.warmS * 1000000) g.chain.s3 w2.2
  let w4 := walkStep now 4 (g.purityMet v) (g.cfg.purityHoldS * 1000000) g.chain.s4 w3.2
  (⟨w1.1, w2.1, w3.1, w4.1, if w4.2.lost then .incomplete else g.chain.s5⟩, w4.2.events)

/-- Phase 2: the chain (R101, R109); the receive state is read directly (R108, R111). A hold timer starts at the moment at which the
job runs, not at the snapshot's stamp (log 36). -/
def tgdChain (s : State) : State :=
  let w := s.tgd.walk s.lif s.now s.tgd.view
  raiseAll w.2 { s with tgd := { s.tgd with chain := w.1 } }

/-- The STOP_VALVE demand of a guard state at a snapshot: 0 while TRIPPED (R105), 1 while ARMED (log 12). -/
def Guard.stop : Guard → Int
  | .armed => 1
  | .tripped => 0

/-- Phase 3: one STOP_VALVE and one BYPASS_VALVE demand update for the state after phase 1 (R101, R105, R106). -/
def tgdDemands (s : State) : State := deliverBypass (deliverStop s.tgd.guard.stop s)

/-- TGD processes the snapshot of the view (R101). -/
def tgdProcess (s : State) : State :=
  if s.todo.tgd then
    tgdDemands (tgdChain (tgdCauses
      { s with todo := { s.todo with tgd := false }, tgd := { s.tgd with view := s.view } }))
  else s

/-- The receiver leaves LOCKED: every step INCOMPLETE, every hold timer stopped; a COMPLETE S1 raises STEP_LOST (R111). -/
def chainReset (s : State) : State :=
  raiseIf s.tgd.chain.s1.isComplete .turbStepLost 1 2 { s with tgd := { s.tgd with chain := .init } }

/-- The hold timer of a step. -/
def Chain.step (c : Chain) : HoldStep → StepState
  | .s2 => c.s2
  | .s3 => c.s3
  | .s4 => c.s4

/-- The chain with a step COMPLETE. -/
def Chain.finish (c : Chain) : HoldStep → Chain
  | .s2 => { c with s2 := .complete }
  | .s3 => { c with s3 := .complete }
  | .s4 => { c with s4 := .complete }

/-- The number of a step. -/
def HoldStep.number : HoldStep → Int
  | .s2 => 2
  | .s3 => 3
  | .s4 => 4

/-- The hold timer of a TIMING step expires: the step becomes COMPLETE and STEP_DONE is raised (R109). -/
def holdExpiry (st : HoldStep) (s : State) : State :=
  match s.tgd.chain.step st with
  | .timing t =>
    let s := s.reachEnd t
    raise .turbStepDone (HoldStep.number st) 0 { s with tgd := { s.tgd with chain := s.tgd.chain.finish st } }
  | .incomplete => s
  | .complete => s

/-! ## Active causes and the commands (R112 to R116) -/

/-- A cause is active now (R115), on the view of the last snapshot TGD processed (log 25); BLIND as it stands now. -/
def Tgd.activeNow (g : Tgd) (blind : Bool) (c : Cause) : Bool :=
  let speed := g.view.reading g.cfg.speed
  let lube := g.view.reading g.cfg.lube
  let purity := g.view.reading g.cfg.purity
  match c with
  | .overspeed => !speed.usable || decide (g.cfg.tripSpeed ≤ speed.value)
  | .lubeLow => !lube.usable || decide (lube.value < g.cfg.lubeTrip)
  | .purityHigh => !purity.usable || decide (g.cfg.purityTrip < purity.value)
  | .field =>
    match g.cfg.field with
    | none => false
    | some ch => !(g.view.reading ch).usable || decide ((g.view.reading ch).value = 1)
  | .blind => blind
  | .hostTrip => false
  | .restarted => false

/-- The lowest step among a list of numbered states that is not COMPLETE. -/
def firstIncomplete : List (Int × StepState) → Option Int
  | [] => none
  | (n, st) :: rest => if st.isComplete then firstIncomplete rest else some n

/-- S1 to S4 with their numbers. -/
def Chain.four (c : Chain) : List (Int × StepState) := [(1, c.s1), (2, c.s2), (3, c.s3), (4, c.s4)]

/-- The reply of every TURBINE_CMD: the guard state after it, and the blocking item of a BLOCKED reply (R112). -/
def turbineAnswer (st : Status) (kind item : Int) (s : State) : Answer × State :=
  answer st (put8 s.tgd.guard.code ++ put8 kind ++ put8 item) s

/-- TURBINE_CMD TRIP (R113). -/
def turbineTrip (s : State) : Answer × State :=
  if s.mbc.mode = .config then turbineAnswer .wrongMode 0 0 s
  else if s.tgd.guard = .tripped ∧ Cause.hostTrip ∈ s.tgd.causes then turbineAnswer .already 0 0 s
  else turbineAnswer .ok 0 0 (takeCause .hostTrip false s)

/-- TURBINE_CMD RELEASE (R112, R114). -/
def turbineRelease (s : State) : Answer × State :=
  if s.mbc.mode = .config then turbineAnswer .wrongMode 0 0 s
  else if s.mbc.link = .silent then turbineAnswer .linkLocked 0 0 s
  else if s.tgd.guard = .armed then turbineAnswer .wrongState 0 0 s
  else if s.tgd.chain.s5.isComplete then turbineAnswer .already 0 0 s
  else match firstIncomplete s.tgd.chain.four with
    | some n => turbineAnswer .blocked 2 n s
    | none =>
      turbineAnswer .ok 0 0
        (raise .turbStepDone 5 0 { s with tgd := { s.tgd with chain := { s.tgd.chain with s5 := .complete } } })

/-- The first item that blocks a reset: an active cause in code order, then a step that is not COMPLETE (R116). -/
def resetBlock (s : State) : Option (Int × Int) :=
  match Cause.all.find? (s.tgd.activeNow s.lif.blind) with
  | some c => some (1, c.code)
  | none => (firstIncomplete (s.tgd.chain.four ++ [(5, s.tgd.chain.s5)])).map fun n => (2, n)

/-- The code of the first cause; 0 for none (Table 6-5). -/
def firstCode : Option Cause → Int
  | none => 0
  | some c => c.code

/-- The effects of a reset that is taken (R116). -/
def turbineArm (s : State) : State :=
  raise .turbReset 0 (firstCode s.tgd.first)
    (deliverBypass (deliverStop 1
      { s with tgd := { s.tgd with guard := .armed, first := none, causes := [], cap := none,
                                   chain := { s.tgd.chain with s5 := .incomplete } } }))

/-- TURBINE_CMD RESET (R112, R116). -/
def turbineReset (s : State) : Answer × State :=
  if s.mbc.mode ≠ .supervise then turbineAnswer .wrongMode 0 0 s
  else if s.mbc.link = .silent then turbineAnswer .linkLocked 0 0 s
  else if s.tgd.guard = .armed then turbineAnswer .already 0 0 s
  else match resetBlock s with
    | some (kind, item) => turbineAnswer .blocked kind item s
    | none => turbineAnswer .ok 0 0 (turbineArm s)

/-- TURBINE_CMD (R112). -/
def turbineCmd : Handler := fun p s =>
  match p with
  | [cmd] =>
    if cmd = 0 then turbineTrip s
    else if cmd = 1 then turbineReset s
    else if cmd = 2 then turbineRelease s
    else turbineAnswer .badValue 0 0 s
  | _ => turbineAnswer .badLength 0 0 s

/-- Time left on the hold timer of a step, ms, rounded up; 0 unless TIMING (Table 6-5). -/
def StepState.leftMs (now : Time) : StepState → Int
  | .timing t => Timer.leftMs now (some t)
  | .incomplete => 0
  | .complete => 0

/-- The 37 bytes of READ_TURBINE (Table 6-5). -/
def turbineBytes (s : State) : List Byte :=
  let g := s.tgd
  put8 g.guard.code ++ put8 (firstCode g.first) ++ put8 (flagByte (Cause.all.map fun c => decide (c ∈ g.causes)))
    ++ put8 (flagByte (Cause.all.map (g.activeNow s.lif.blind))) ++ putTime g.tripStamp ++ put16 g.tripCount.toInt
    ++ put8 (flagByte [g.cap.isSome, (g.cap.map Cap.stale).getD false]) ++ put16 ((g.cap.map Cap.value).getD 0)
    ++ put8 g.chain.s1.code ++ put8 g.chain.s2.code ++ put8 g.chain.s3.code ++ put8 g.chain.s4.code ++ put8 g.chain.s5.code
    ++ put32 (g.chain.s2.leftMs s.now) ++ put32 (g.chain.s3.leftMs s.now) ++ put32 (g.chain.s4.leftMs s.now)
    ++ put8 g.lubeCount ++ put8 g.purityCount ++ put8 g.stopDemand ++ put16 g.bypassDemand

/-- READ_TURBINE (R117). -/
def readTurbine : Handler := fun p s =>
  match p with
  | [] => answer .ok (turbineBytes s) s
  | _ => refuse .badLength s

def execTurbineCmdTrip (r : Request) (s : State) : Host.Outcome State Fault Refusal := live s (goodFrame 0x0D turbineCmd r)
def execTurbineCmdReset (r : Request) (s : State) : Host.Outcome State Fault Refusal := live s (goodFrame 0x0D turbineCmd r)
def execTurbineCmdRelease (r : Request) (s : State) : Host.Outcome State Fault Refusal := live s (goodFrame 0x0D turbineCmd r)
def execReadTurbine (r : Request) (s : State) : Host.Outcome State Fault Refusal := live s (goodFrame 0x0E readTurbine r)
def execTgdProcessSnapshot (s : State) : Host.Outcome State Fault Refusal := live s tgdProcess
def execPermissiveHoldExpiry (st : HoldStep) (s : State) : Host.Outcome State Fault Refusal := live s (holdExpiry st)

end Sys2Proof.Machine
end

