-- ==== Sys2Proof/Machine/Wells.lean ====
section
/-! DEFINITION. WSV, the well supervisor (chapter 5): demands, trips, the start queue and its arbiter, the reinjection balance,
the production ceiling, and the well commands. -/

namespace Sys2Proof.Machine

/-- A well replaced. -/
def State.setWell (s : State) (i : WellNo) (w : Well) : State := { s with wsv := { s.wsv with wells := s.wsv.wells.set i w } }

/-- A well of the supervisor. -/
def State.well (s : State) (i : WellNo) : Well := s.wsv.wells[i]

/-- Table 5-9: the runtime state of WSV after each reset, its four tables kept, given a view. -/
def Wsv.reset (v : Wsv) (view : View) : Wsv :=
  { v with wells := v.wells.map fun w => Well.init w.cfg w.permit w.hold
           queue := [], slot := none, stagger := none, ceiling := 1000, result := .notComputed, deficit := false, capacity := 0,
           threshold := 0, brineMark := false, view := view }

/-! ## Demands (R74) -/

/-- The ceiling-applied target of a well (R74). -/
def Wsv.target (v : Wsv) (i : WellNo) : Int :=
  match v.wells[i].cfg.role with
  | .production => floorDiv (v.view.active.speeds[i] * v.ceiling) 1000
  | .reinjection => v.view.active.speeds[i]
  | .unused => v.view.active.speeds[i]

/-- The run demand of a state (Table 5-4). -/
def Wsv.runDemand (v : Wsv) (i : WellNo) : Int :=
  match v.wells[i].state with
  | some .starting => 1
  | some .running => 1
  | _ => 0

/-- The speed demand of a state (Table 5-4). -/
def Wsv.speedDemand (v : Wsv) (i : WellNo) : Int :=
  match v.wells[i].state with
  | some .starting => min v.wells[i].cfg.startSpeed (v.target i)
  | some .running => v.target i
  | _ => 0

/-- WSV delivers a well's run and speed demand updates for the state it is in (R74). -/
def deliverWell (i : WellNo) (s : State) : State :=
  let run := s.wsv.runDemand i
  let speed := s.wsv.speedDemand i
  deliver (.wellSpeed i) speed
    (deliver (.wellRun i) run (s.setWell i { s.well i with runDemand := run, speedDemand := speed }))

/-! ## The start slot and the arbiter (R85 to R87) -/

/-- A well that leaves STARTING or RUNNING for a state outside them: marks clear, count 0, start timer stopped (R91, R92). -/
def Well.leave (w : Well) (st : WellState) : Well :=
  { w with state := some st, intakeCount := 0, flowBlind := false, intakeBlind := false, motorBlind := false, startTimer := none }

/-- The start slot is released and the stagger timer starts; a stagger time of 0 does not start it (R87). -/
def releaseSlot (s : State) : State :=
  { s with wsv := { s.wsv with
      slot := none
      stagger := if s.wsv.stagger.isSome ∨ s.wsv.plant.staggerMs = 0 then s.wsv.stagger
                 else some (s.timerMs s.wsv.plant.staggerMs) } }

/-- A well is of role REINJECTION. -/
def Wsv.reinjects (v : Wsv) (i : WellNo) : Bool := decide (v.wells[i].cfg.role = .reinjection)

/-- The queue with a well joined: after the last well of its own role, ahead of the other part behind it (R85). -/
def Wsv.join (v : Wsv) (i : WellNo) : List WellNo :=
  if v.reinjects i then v.queue.takeWhile v.reinjects ++ [i] ++ v.queue.dropWhile v.reinjects else v.queue ++ [i]

/-- A queued well may be granted the slot (R86). -/
def Wsv.eligible (v : Wsv) (i : WellNo) : Bool := v.reinjects i || (!v.deficit && v.view.cap.isNone)

/-- The grant of the start slot (R86). -/
def grant (i : WellNo) (s : State) : State :=
  let s := { s with wsv := { s.wsv with queue := s.wsv.queue.erase i, slot := some i } }
  let s := s.setWell i { s.well i with state := some .starting, startTimer := some (s.timerMs (s.well i).cfg.startMs) }
  raise .wellGranted i.val (s.wsv.speedDemand i) (deliverWell i s)

/-- The start arbiter acts (R86). -/
def arbiter (s : State) : State :=
  if s.mbc.mode = .supervise ∧ s.wsv.slot = none ∧ s.wsv.stagger = none then
    match s.wsv.queue.find? s.wsv.eligible with
    | none => s
    | some i => grant i s
  else s

/-- The place of a well in the start queue, 0xFF when it is not in it (R78). -/
def Wsv.place (v : Wsv) (i : WellNo) : Int :=
  match v.queue.idxOf? i with
  | some n => n
  | none => 0xFF

/-! ## Trips (R93) -/

/-- The trip history with a trip's stamp: stamps older than the window removed, the oldest of four dropped (R93). -/
def pushTrip (windowMin : Nat) (now : Time) (h : List Time) : List Time :=
  let kept := h.filter fun t => decide (elapsed t now ≤ windowMin * 60000000)
  kept.drop (kept.length - 3) ++ [now]

/-- A trip of a well (R93). A slot that it releases is the arbiter's event, on which the caller has the arbiter act (log 15). -/
def tripWell (c : TripCause) (i : WellNo) (s : State) : State :=
  let w := s.well i
  let h := pushTrip w.cfg.windowMin s.now w.history
  let locked := decide (w.cfg.tripLimit ≤ h.length)
  let s := if w.state = some .starting then releaseSlot s else s
  let s := s.setWell i { w.leave (if locked then .lockedOut else .tripped) with history := h, lastTrip := some c }
  deliverWell i (raise (if locked then .wellLockout else .wellTrip) i.val (TripCause.code (some c)) s)

/-! ## The tests of a snapshot (R89, R91, R92) -/

/-- A channel read by a well: a STALE one sets the mark and is reported once, a usable one clears the mark (R91). -/
def noteBlind (k : EventKind) (i : WellNo) (r : Reading) (marked : Bool) (put : Bool → Well → Well) (s : State) : State :=
  if r.usable then s.setWell i (put false (s.well i))
  else if marked then s
  else raise k i.val 0 (s.setWell i (put true (s.well i)))

/-- The flow channel is read. -/
def noteFlow (i : WellNo) (s : State) : State :=
  noteBlind .wellFlowBlind i (s.wsv.view.reading (s.well i).cfg.flow) (s.well i).flowBlind (fun b w => { w with flowBlind := b }) s

/-- The intake pressure channel is read. -/
def noteIntake (i : WellNo) (s : State) : State :=
  noteBlind .wellIntakeBlind i (s.wsv.view.reading (s.well i).cfg.intake) (s.well i).intakeBlind
    (fun b w => { w with intakeBlind := b }) s

/-- The motor trip channel is read, when the well has one. -/
def noteMotor (i : WellNo) (s : State) : State :=
  match (s.well i).cfg.motor with
  | none => s
  | some c =>
    noteBlind .wellMotorBlind i (s.wsv.view.reading c) (s.well i).motorBlind (fun b w => { w with motorBlind := b }) s

/-- The motor trip channel is usable and its value is 1. -/
def Wsv.motorTrip (v : Wsv) (i : WellNo) : Bool :=
  match v.wells[i].cfg.motor with
  | none => false
  | some c => (v.view.reading c).holds fun x => decide (x = 1)

/-- The flow channel is usable and at or above the minimum start flow. -/
def Wsv.flowing (v : Wsv) (i : WellNo) : Bool :=
  (v.view.reading v.wells[i].cfg.flow).holds fun x => decide (v.wells[i].cfg.minFlow ≤ x)

/-- A STARTING well enters RUNNING (R89). -/
def startRunning (i : WellNo) (s : State) : State :=
  let w := s.well i
  raise .wellRunning i.val (s.wsv.view.reading w.cfg.flow).value
    ((releaseSlot s).setWell i { w with state := some .running, startTimer := none, intakeCount := 0 })

/-- The tests of a STARTING well (R89). -/
def testStarting (i : WellNo) (s : State) : State :=
  let s := noteMotor i s
  if s.wsv.motorTrip i then tripWell .motor i s
  else
    let s := noteFlow i s
    if s.wsv.flowing i then startRunning i s else s

/-- The intake count after a reading (R92). -/
def Wsv.intakeNext (v : Wsv) (i : WellNo) : Nat :=
  persist (v.view.reading v.wells[i].cfg.intake)
    (decide ((v.view.reading v.wells[i].cfg.intake).value < v.wells[i].cfg.intakeLimit)) v.wells[i].intakeCount

/-- The tests of a RUNNING well (R92); the flow channel is read for its mark only (log 14). -/
def testRunning (i : WellNo) (s : State) : State :=
  let s := noteMotor i s
  if s.wsv.motorTrip i then tripWell .motor i s
  else
    let s := noteIntake i (noteFlow i s)
    let s := s.setWell i { s.well i with intakeCount := s.wsv.intakeNext i }
    if (s.well i).cfg.intakePersistence ≤ (s.well i).intakeCount then tripWell .lowIntake i s else s

/-- Phase 3 for one well (R76): the tests of its state, then its demands. -/
def processWell (s : State) (i : WellNo) : State :=
  match (s.well i).state with
  | none => s
  | some .starting => deliverWell i (testStarting i s)
  | some .running => deliverWell i (testRunning i s)
  | some _ => deliverWell i s

/-! ## Balance and ceiling (R94 to R96) -/

/-- A point is in ALARM for the balance: VALID or HELD, state ALARM (R94). -/
def PointResult.alarmed (r : PointResult) : Bool := decide (r.state = .alarm ∧ r.validity ≠ .invalid)

/-- The share of a well in the reinjection capacity (R94). -/
def Well.share (v : View) (w : Well) : Int :=
  if w.cfg.role = .reinjection ∧ w.state = some .running then
    match w.cfg.point with
    | none => roundDiv (w.cfg.rated * 1000) 1000
    | some p => roundDiv (w.cfg.rated * (if v.points[p].alarmed then w.cfg.derate else 1000)) 1000
  else 0

/-- The reinjection capacity C (R94). -/
def Wsv.sumShares (v : Wsv) : Int := (v.wells.toList.map (Well.share v.view)).sum

/-- The comparison of R95. -/
def compareFlow (f c threshold : Int) : BalanceResult :=
  if c < f then .deficit else if f ≤ threshold then .surplus else .hold

/-- A computed result taken: the flag and its events, and the report mark cleared (R95). -/
def takeResult (f : Int) (r : BalanceResult) (s : State) : State :=
  let was := s.wsv.deficit
  let isNow := decide (r = .deficit)
  let s := { s with wsv := { s.wsv with result := r, deficit := isNow, brineMark := false } }
  raiseIf (was && !isNow) .wellDeficitEnd 0 0 (raiseIf (!was && isNow) .wellDeficit 0 (f - s.wsv.capacity) s)

/-- A held result: reported once (R95). -/
def takeHeld (s : State) : State :=
  raiseIf (!s.wsv.brineMark) .wellBrineBlind 0 0 { s with wsv := { s.wsv with result := .held, brineMark := true } }

/-- Phase 1 (R76, R94, R95). -/
def wsvBalance (s : State) : State :=
  match (if s.wsv.plant.check then s.wsv.plant.brine else none) with
  | none => { s with wsv := { s.wsv with result := .notComputed } }
  | some ch =>
    let c := s.wsv.sumShares
    let threshold := roundDiv (c * (1000 - s.wsv.plant.margin)) 1000
    let s := { s with wsv := { s.wsv with capacity := c, threshold := threshold } }
    let f := s.wsv.view.reading ch
    if f.usable then takeResult f.value (compareFlow f.value c threshold) s else takeHeld s

/-- The limit L of R96. -/
def capLimit : Option Cap → Int
  | none => 1000
  | some c => c.value

/-- The production ceiling after a result (R96). -/
def nextCeiling (plant : PlantRecord) (r : BalanceResult) (cap : Option Cap) (p : Int) : Int :=
  match r with
  | .deficit => min (capLimit cap) (max (p - plant.runback) plant.ceilingMin)
  | .surplus => min (capLimit cap) (p + plant.recover)
  | .hold => min (capLimit cap) p
  | .held => min (capLimit cap) p
  | .notComputed => min (capLimit cap) p

/-- Phase 2 (R76, R96). -/
def wsvCeiling (s : State) : State :=
  { s with wsv := { s.wsv with ceiling := nextCeiling s.wsv.plant s.wsv.result s.wsv.view.cap s.wsv.ceiling } }

/-- Phase 3 (R76): the wells in ascending index. -/
def wsvWells (s : State) : State := (List.finRange 16).foldl processWell s

/-- Phase 4 (R76): the arbiter acts when the snapshot was published in SUPERVISE, and when phase 3 released the slot (log 15). -/
def wsvGrant (before : Option WellNo) (s : State) : State :=
  if s.wsv.view.mode = .supervise ∨ (before.isSome ∧ s.wsv.slot = none) then arbiter s else s

/-- The four phases (R76). -/
def wsvPhases (s : State) : State := wsvGrant s.wsv.slot (wsvWells (wsvCeiling (wsvBalance s)))

/-- The demands of a well in a role (R77). -/
def frozenWell (s : State) (i : WellNo) : State := if (s.well i).state.isSome then deliverWell i s else s

/-- A snapshot published in STANDBY (R77): P limited by the trip cap, then every well's demands. -/
def wsvFrozen (s : State) : State :=
  let p := match s.wsv.view.cap with
    | none => s.wsv.ceiling
    | some c => min s.wsv.ceiling c.value
  (List.finRange 16).foldl frozenWell
    { s with wsv := { s.wsv with ceiling := p } }

/-- WSV processes the snapshot of the view (R76, R77). -/
def wsvProcess (s : State) : State :=
  if s.todo.wsv then
    let s := { s with todo := { s.todo with wsv := false }, wsv := { s.wsv with view := s.view } }
    match s.wsv.view.mode with
    | .supervise => wsvPhases s
    | .leaving => wsvPhases s
    | .standby => wsvFrozen s
    | .config => wsvFrozen s
  else s

/-! ## The timers (R87, R90) -/

/-- A STARTING well's start timer expires (R90). -/
def startExpiry (i : WellNo) (s : State) : State :=
  match (s.well i).state, (s.well i).startTimer with
  | some .starting, some t => arbiter (tripWell .startFail i (s.reachEnd t))
  | _, _ => s

/-- The stagger timer expires (R87). -/
def staggerExpiry (s : State) : State :=
  match s.wsv.stagger with
  | some t => let s := s.reachEnd t; arbiter { s with wsv := { s.wsv with stagger := none } }
  | none => s

/-! ## Commands (R78 to R84, R88) -/

/-- A well moved to STOPPED by STOP or by the entry into LEAVING: demands and event (R82, R88). -/
def stopWell (why : Int) (i : WellNo) (s : State) : State :=
  let s := { s with wsv := { s.wsv with queue := s.wsv.queue.erase i } }
  raise .wellStopped i.val why (deliverWell i (s.setWell i ((s.well i).leave .stopped)))

/-- A START_PENDING well returns to STOPPED (R88). -/
def unqueueWell (s : State) (i : WellNo) : State := if (s.well i).state = some .startPending then stopWell 1 i s else s

/-- The entry into LEAVING: every START_PENDING well returns to STOPPED, in ascending index, and the queue becomes empty (R88). -/
def emptyStartQueue (s : State) : State :=
  let s := (List.finRange 16).foldl unqueueWell s
  { s with wsv := { s.wsv with queue := [] } }

/-- The commands of WELL_CMD (R78). -/
inductive WellCommand where
  | start | stop | clear | serviceOut | serviceIn | hold | release
  deriving DecidableEq, Repr

/-- The command of a command byte (R78). -/
def WellCommand.ofCode (n : Nat) : Option WellCommand :=
  if n = 0 then some .start else if n = 1 then some .stop else if n = 2 then some .clear else if n = 3 then some .serviceOut
  else if n = 4 then some .serviceIn else if n = 5 then some .hold else if n = 6 then some .release else none

/-- HOLD and RELEASE, the commands that act on the HOLD flag. -/
def WellCommand.onFlag : WellCommand → Bool
  | .hold => true
  | .release => true
  | _ => false

/-- Check 2, the mode (R78). -/
def WellCommand.modeTakes (c : WellCommand) : Mode → Bool
  | .config => false
  | .standby => c.onFlag
  | .supervise => true
  | .leaving => decide (c ≠ .start)

/-- Check 3: refused while the link is SILENT (R78). -/
def WellCommand.needsLink : WellCommand → Bool
  | .start => true
  | .clear => true
  | .serviceIn => true
  | _ => false

/-- Check 4: the PERMIT entry allows the command (R78, R79). -/
def WellCommand.permitted (c : WellCommand) (p : Permit) : Bool :=
  match c with
  | .start => p.start
  | .clear => p.clear
  | .serviceOut => p.serviceOut
  | .serviceIn => p.serviceIn
  | _ => true

/-- Check 5: refused while the HOLD flag is set (R78, R80). -/
def WellCommand.stopsOnHold : WellCommand → Bool
  | .start => true
  | .clear => true
  | .serviceOut => true
  | .serviceIn => true
  | _ => false

/-- The first of the checks 2 to 5 that fails, and the part of check 6 that concerns a well of role UNUSED (R78). -/
def wellRefusal (c : WellCommand) (i : WellNo) (s : State) : Option Status :=
  if !c.modeTakes s.mbc.mode then some .wrongMode
  else if s.mbc.link = .silent ∧ c.needsLink then some .linkLocked
  else if !c.permitted (s.well i).permit then some .notPermitted
  else if (s.well i).hold ∧ c.stopsOnHold then some .onHold
  else if (s.well i).cfg.role = .unused ∧ !c.onFlag then some .wrongState
  else none

/-- START (R81). -/
def wellStart (i : WellNo) (s : State) : Status × State :=
  match (s.well i).state with
  | some .stopped =>
    let q := s.wsv.join i
    let s := { s with wsv := { s.wsv with queue := q } }
    (.ok, arbiter (raise .wellQueued i.val (s.wsv.place i) (s.setWell i { s.well i with state := some .startPending })))
  | some .startPending => (.already, s)
  | some .starting => (.already, s)
  | some .running => (.already, s)
  | _ => (.wrongState, s)

/-- STOP (R82). -/
def wellStop (i : WellNo) (s : State) : Status × State :=
  match (s.well i).state with
  | some .startPending => (.ok, stopWell 0 i s)
  | some .starting => (.ok, arbiter (stopWell 0 i (releaseSlot s)))
  | some .running => (.ok, stopWell 0 i s)
  | _ => (.ok, s)

/-- CLEAR (R83). -/
def wellClear (i : WellNo) (s : State) : Status × State :=
  match (s.well i).state with
  | some .tripped =>
    (.ok, raise .wellCleared i.val (s.well i).history.length (s.setWell i { s.well i with state := some .stopped }))
  | some .lockedOut =>
    (.ok, raise .wellCleared i.val 0 (s.setWell i { s.well i with state := some .stopped, history := [] }))
  | _ => (.wrongState, s)

/-- SERVICE_OUT (R84). -/
def wellServiceOut (i : WellNo) (s : State) : Status × State :=
  let out := (Status.ok, raise .wellService i.val 0 (s.setWell i { s.well i with state := some .outOfService }))
  match (s.well i).state with
  | some .stopped => out
  | some .tripped => out
  | some .lockedOut => out
  | _ => (.wrongState, s)

/-- SERVICE_IN (R84). -/
def wellServiceIn (i : WellNo) (s : State) : Status × State :=
  match (s.well i).state with
  | some .outOfService =>
    (.ok, raise .wellService i.val 1 (s.setWell i { s.well i with state := some .stopped, history := [] }))
  | _ => (.wrongState, s)

/-- HOLD and RELEASE (R80). -/
def wellHold (b : Bool) (i : WellNo) (s : State) : Status × State :=
  if (s.well i).hold = b then (.already, s) else (.ok, s.setWell i { s.well i with hold := b })

/-- The command acts (R78). -/
def wellAct (c : WellCommand) (i : WellNo) (s : State) : Status × State :=
  match c with
  | .start => wellStart i s
  | .stop => wellStop i s
  | .clear => wellClear i s
  | .serviceOut => wellServiceOut i s
  | .serviceIn => wellServiceIn i s
  | .hold => wellHold true i s
  | .release => wellHold false i s

/-- The two bytes of a WELL_CMD reply, for the state after the request (R78). -/
def wellAnswer (i : WellNo) (out : Status × State) : Answer × State :=
  answer out.1 (put8 (WellState.code (out.2.well i).state) ++ put8 (out.2.wsv.place i)) out.2

/-- WELL_CMD (R78). -/
def wellCmd : Handler := fun p s =>
  match p with
  | [w, c] =>
    match index? 16 (w.toNat : Int) with
    | none => refuse .badIndex s
    | some i =>
      match WellCommand.ofCode c.toNat with
      | none => wellAnswer i (.badValue, s)
      | some c =>
        match wellRefusal c i s with
        | some st => wellAnswer i (st, s)
        | none => wellAnswer i (wellAct c i s)
  | _ => refuse .badLength s

/-! ## READ_WELLS (R97) -/

/-- Sixteen bytes of the queue, 0xFF after the last (Table 5-5). -/
def queueBytes (q : List WellNo) : List Byte :=
  (List.range 16).flatMap fun k => putOptIndex (q[k]?)

/-- The header (Table 5-5). -/
def wellsHeader (s : State) (first count : Byte) : List Byte :=
  let v := s.wsv
  put16 v.ceiling ++ put8 v.result.code ++ put8 (flagByte [v.deficit, v.view.cap.isSome, v.stagger.isSome]) ++ put32 v.capacity
    ++ put32 v.threshold ++ put32 (Timer.leftMs s.now v.stagger) ++ putOptIndex v.slot ++ put8 v.queue.length
    ++ queueBytes v.queue ++ [first, count]

/-- One entry (Table 5-6). -/
def Well.entry (now : Time) (w : Well) : List Byte :=
  put8 w.cfg.role.code ++ put8 (WellState.code w.state) ++ put8 (flagByte (w.hold :: w.permit.flags))
    ++ put8 (TripCause.code w.lastTrip) ++ put8 w.history.length ++ put8 w.intakeCount ++ put16 w.speedDemand
    ++ put8 w.runDemand ++ put8 (flagByte [w.flowBlind, w.intakeBlind, w.motorBlind]) ++ put32 (Timer.leftMs now w.startTimer)

/-- READ_WELLS (R97). -/
def readWells : Handler := fun p s =>
  match p with
  | [first, count] =>
    match rangeCheck 16 8 first.toNat count.toNat with
    | some st => refuse st s
    | none =>
      answer .ok (wellsHeader s first count
        ++ ((s.wsv.wells.toList.drop first.toNat).take count.toNat).flatMap (Well.entry s.now)) s
  | _ => refuse .badLength s

def execWellCmdStart (r : Request) (s : State) : Host.Outcome State Fault Refusal := live s (goodFrame 0x0B wellCmd r)
def execWellCmdStop (r : Request) (s : State) : Host.Outcome State Fault Refusal := live s (goodFrame 0x0B wellCmd r)
def execWellCmdClear (r : Request) (s : State) : Host.Outcome State Fault Refusal := live s (goodFrame 0x0B wellCmd r)
def execWellCmdServiceOut (r : Request) (s : State) : Host.Outcome State Fault Refusal := live s (goodFrame 0x0B wellCmd r)
def execWellCmdServiceIn (r : Request) (s : State) : Host.Outcome State Fault Refusal := live s (goodFrame 0x0B wellCmd r)
def execWellCmdHold (r : Request) (s : State) : Host.Outcome State Fault Refusal := live s (goodFrame 0x0B wellCmd r)
def execWellCmdRelease (r : Request) (s : State) : Host.Outcome State Fault Refusal := live s (goodFrame 0x0B wellCmd r)
def execReadWells (r : Request) (s : State) : Host.Outcome State Fault Refusal := live s (goodFrame 0x0C readWells r)
def execWsvProcessSnapshot (s : State) : Host.Outcome State Fault Refusal := live s wsvProcess
def execStartTimerExpiry (i : WellNo) (s : State) : Host.Outcome State Fault Refusal := live s (startExpiry i)
def execStaggerTimerExpiry (s : State) : Host.Outcome State Fault Refusal := live s staggerExpiry

end Sys2Proof.Machine
end

