-- ==== Sys2Proof/Machine/Capture.lean ====
section
/-! DEFINITION. CAP, the capture ring (chapter 10): trigger marks, recording, freezing, and its two requests. -/

namespace Sys2Proof.Machine

/-- What RESTART and entry into CONFIG do to CAP: the trigger marks take their reset values, the rest is kept (R169). -/
def Capture.reset (c : Capture) : Capture := { c with alarmMarks := Vector.replicate 8 false, lastTrips := 0 }

/-- The value of a source in a view (Table 10-2). -/
def CaptureSource.value (v : View) : CaptureSource → Int
  | .channel c => (v.reading c).value
  | .si p => v.points[p].si
  | .floor p => v.points[p].tFloor
  | .pceil => v.ceiling
  | .heatdem => v.heat.valve

/-- The words of a record: the snapshot number and the clamped values in list order (R164). -/
def Capture.record (c : Capture) (v : View) : List Word :=
  v.number :: c.cfg.sources.map fun src => BitVec.ofInt 16 (clamp (-32768) 32767 (src.value v))

/-- The notice of a record of n words at a position (R165). -/
def ringNotice (pos n : Nat) : List Report :=
  if 4096 ≤ pos + n then [⟨.captWrap, 0, ((pos + n) % 4096 : Nat)⟩]
  else if pos < 2048 ∧ 2048 ≤ pos + n then [⟨.captHalf, 0, (pos + n : Nat)⟩]
  else []

/-- A written record in TRIGGERED counts toward the post count; reaching it freezes the ring (R166). -/
def countPost (s : State) : State :=
  let c := s.cap
  if c.state ≠ .triggered then s
  else if c.post + 1 < c.cfg.postCount then { s with cap := { c with post := c.post + 1 } }
  else raise .captFrozen 0 c.pos { s with cap := { c with post := c.post + 1, state := .frozen } }

/-- One record written whole (R164), its notice (R165), and its place in the post count (R166). Where the record raises HALF or
WRAP and FROZEN, the notice comes first (log 37). -/
def writeCapture (s : State) : State :=
  let c := s.cap
  let ws := c.record s.view
  countPost (raiseAll (ringNotice c.pos ws.length)
    { s with cap := { c with dec := 0, ring := c.ring.writeRecord c.pos ws, pos := (c.pos + ws.length) % 4096 } })

/-- The decimation step (R164). -/
def decimate (s : State) : State :=
  if s.cap.dec + 1 < s.cap.cfg.decimation then { s with cap := { s.cap with dec := s.cap.dec + 1 } } else writeCapture s

/-- The lowest point whose alarm mark changes from clear to set (R166). The marks alone decide, also for an alarm entered before
START or REARM that no view processed by CAP has shown yet (log 42). -/
def Capture.freshAlarm (c : Capture) (v : View) : Option PointNo :=
  (List.finRange 8).find? fun p => v.points[p].alarmed && !c.alarmMarks[p]

/-- The trip count differs from the last one seen (R166). -/
def Capture.freshTrip (c : Capture) (v : View) : Bool := decide (v.tripCount ≠ c.lastTrips)

/-- The trigger test against the marks before their update: the subject of TRIGGERED when it is met (R166). Where ANY is met by
both, the subject is the point (log 32). -/
def Capture.triggered (c : Capture) (v : View) : Option Int :=
  let alarm := (c.freshAlarm v).map fun p => (p.val : Int)
  let trip := if c.freshTrip v then some 0 else none
  match c.cfg.trigger with
  | .none => none
  | .scaleAlarm => alarm
  | .turbineTrip => trip
  | .any => alarm <|> trip

/-- The marks updated from a view (R166). -/
def Capture.update (c : Capture) (v : View) : Capture :=
  { c with alarmMarks := v.points.map PointResult.alarmed, lastTrips := v.tripCount }

/-- The trigger is met (R166). With post count 0 the ring is frozen at once (log 17). -/
def trigger (subject : Int) (s : State) : State :=
  let s := raise .captTriggered subject s.view.number.toNat { s with cap := { s.cap with state := .triggered, post := 0 } }
  if s.cap.cfg.postCount = 0 then raise .captFrozen 0 s.cap.pos { s with cap := { s.cap with state := .frozen } } else s

/-- CAP processes the snapshot of the view (R164). -/
def capProcess (s : State) : State :=
  if s.todo.cap then
    let met := s.cap.triggered s.view
    let s := { s with todo := { s.todo with cap := false }, cap := s.cap.update s.view }
    match s.cap.state with
    | .stopped => s
    | .frozen => s
    | .triggered => decimate s
    | .running =>
      match met with
      | none => decimate s
      | some subject =>
        let s := trigger subject s
        if s.cap.state = .frozen then s else decimate s
  else s

/-! ## Requests (R167, R168) -/

/-- The reply of CAPTURE_CMD: the state after the request and the write position (R167). -/
def captureAnswer (st : Status) (s : State) : Answer × State := answer st (put8 s.cap.state.code ++ put16 s.cap.pos) s

/-- CAPTURE_CMD START (R167). -/
def captureStart (s : State) : Answer × State :=
  match s.cap.state with
  | .stopped => captureAnswer .ok { s with cap := { s.cap with state := .running, pos := 0, dec := 0 } }
  | _ => captureAnswer .wrongState s

/-- CAPTURE_CMD STOP (R167). -/
def captureStop (s : State) : Answer × State :=
  match s.cap.state with
  | .stopped => captureAnswer .already s
  | _ => captureAnswer .ok { s with cap := { s.cap with state := .stopped } }

/-- CAPTURE_CMD REARM (R167). -/
def captureRearm (s : State) : Answer × State :=
  match s.cap.state with
  | .frozen => captureAnswer .ok { s with cap := { s.cap with state := .running, dec := 0 } }
  | _ => captureAnswer .wrongState s

/-- CAPTURE_CMD (R167). -/
def captureCmd : Handler := fun p s =>
  match p with
  | [c] =>
    if c = 0 then captureStart s
    else if c = 1 then captureStop s
    else if c = 2 then captureRearm s
    else captureAnswer .badValue s
  | _ => captureAnswer .badLength s

/-- READ_CAPTURE (R168). -/
def readCapture : Handler := fun p s =>
  match p with
  | [_, _, n] =>
    let off := (u16 p 0).toNat
    if 4095 < off then refuse .badIndex s
    else if n = 0 ∨ 100 < n.toNat then refuse .badValue s
    else
      answer .ok (put8 s.cap.state.code ++ put16 s.cap.pos ++ put16 off ++ [n]
        ++ wordBytes (s.cap.ring.readRecord off n.toNat)) s
  | _ => refuse .badLength s

def execCaptureCmdStart (r : Request) (s : State) : Host.Outcome State Fault Refusal := live s (goodFrame 0x1C captureCmd r)
def execCaptureCmdStop (r : Request) (s : State) : Host.Outcome State Fault Refusal := live s (goodFrame 0x1C captureCmd r)
def execCaptureCmdRearm (r : Request) (s : State) : Host.Outcome State Fault Refusal := live s (goodFrame 0x1C captureCmd r)
def execReadCapture (r : Request) (s : State) : Host.Outcome State Fault Refusal := live s (goodFrame 0x1D readCapture r)
def execCapProcessSnapshot (s : State) : Host.Outcome State Fault Refusal := live s capProcess

end Sys2Proof.Machine
end

