-- ==== Sys2Proof/Machine/Consistency.lean ====
section
/-! DEFINITION. The consistency check of the exit from CONFIG (R56, R57): the ten tests of Table 4-4 in order (within one
test: log 19). -/

namespace Sys2Proof.Machine

/-- A failure as bytes 1 to 5 of the BAD_CONFIG reply give it (R57). -/
structure Failure where
  test : Int
  table : Int
  index : Int
  reason : Int
  detail : Int
  deriving DecidableEq, Repr

/-- Bytes 1 to 5 of the BAD_CONFIG reply (R57). -/
def Failure.bytes (f : Failure) : List Byte := put8 f.test ++ put8 f.table ++ put8 f.index ++ put8 f.reason ++ put8 f.detail

/-- The first item of a list that a test fails. -/
def firstFailure {α : Type} (check : α → Option Failure) : List α → Option Failure
  | [] => none
  | a :: as =>
    match check a with
    | some f => some f
    | none => firstFailure check as

/-- The lowest index below i whose record meets a condition. -/
def earlier (i : Nat) (p : Nat → Bool) : Option Nat := (List.range i).find? p

/-- The record of a channel by number, as far as the tests need it. -/
def Acq.rec? (a : Acq) (n : Nat) : Option ChannelRecord := a.chans[n]?.map Channel.cfg

/-- The record of an output by number. -/
def Out.rec? (u : Out) (n : Nat) : Option OutputRecord := u.outs[n]?.map Output.cfg

/-- The record of a number, when it is in use. -/
def Acq.used (a : Acq) (n : Nat) : Option ChannelRecord := (a.rec? n).filter ChannelRecord.inUse

/-- The record of a number, when it is in use. -/
def Out.used (u : Out) (n : Nat) : Option OutputRecord := (u.rec? n).filter OutputRecord.inUse

/-- Test 1: no two channels in use share an inbound position. -/
def checkChannelPositions (s : State) : Option Failure :=
  firstFailure (fun i =>
    match s.acq.used i with
    | none => none
    | some c => (earlier i fun j => decide ((s.acq.used j).map ChannelRecord.pos = some c.pos)).map
        fun j => ⟨1, 0, (i : Int), 1, (j : Int)⟩) (List.range 96)

/-- Test 2: no two outputs in use share an outbound position. -/
def checkOutputPositions (s : State) : Option Failure :=
  firstFailure (fun i =>
    match s.out.used i with
    | none => none
    | some o => (earlier i fun j => decide ((s.out.used j).map OutputRecord.pos = some o.pos)).map
        fun j => ⟨2, 1, (i : Int), 1, (j : Int)⟩) (List.range 64)

/-- Test 3: no two outputs in use name the same source and index. -/
def checkOutputSources (s : State) : Option Failure :=
  firstFailure (fun i =>
    match s.out.used i with
    | none => none
    | some o => (earlier i fun j => decide ((s.out.used j).map OutputRecord.source = some o.source)).map
        fun j => ⟨3, 1, (i : Int), 2, (j : Int)⟩) (List.range 64)

/-- The well that a source names. -/
def Source.well : Source → Option WellNo
  | .wellRun w => some w
  | .wellSpeed w => some w
  | _ => none

/-- A well is of role PRODUCTION or REINJECTION. -/
def WellRecord.inRole (w : WellRecord) : Bool := decide (w.role ≠ .unused)

/-- Test 4: every WELL_RUN or WELL_SPEED output in use names a well in a role. -/
def checkOutputWells (s : State) : Option Failure :=
  firstFailure (fun i =>
    match (s.out.used i).bind fun o => o.source.well with
    | none => none
    | some w => if s.wsv.wells[w].cfg.inRole then none else some ⟨4, 1, (i : Nat), 6, w.val⟩) (List.range 64)

/-- An output in use names a source. -/
def Out.carries (u : Out) (src : Source) : Bool := u.outs.toList.any fun o => o.cfg.inUse && decide (o.cfg.source = src)

/-- Test 5: every well in a role has a WELL_RUN and a WELL_SPEED output in use. -/
def checkWellOutputs (s : State) : Option Failure :=
  firstFailure (fun w : WellNo =>
    if s.wsv.wells[w].cfg.inRole && !(s.out.carries (.wellRun w) && s.out.carries (.wellSpeed w)) then
      some ⟨5, 2, w.val, 5, 0xFF⟩
    else none) (List.finRange 16)

/-- A channel that a record in effect names, with the table id and the index of the record and the kind of Table 4-5. -/
structure Named where
  table : Int
  index : Int
  channel : ChannelNo
  kind : Kind
  deriving DecidableEq, Repr

/-- The channel of a field that may be none. -/
def Named.maybe (table index : Int) (k : Kind) : Option ChannelNo → List Named
  | none => []
  | some c => [⟨table, index, c, k⟩]

/-- The channels that a well names (Table 4-5). -/
def WellRecord.named (i : Int) (w : WellRecord) : List Named :=
  if w.inRole then [⟨2, i, w.flow, .flow⟩, ⟨2, i, w.intake, .press⟩] ++ Named.maybe 2 i .state w.motor else []

/-- The channels that PLANT names. -/
def PlantRecord.named (p : PlantRecord) : List Named := Named.maybe 8 0 .flow p.brine ++ Named.maybe 8 0 .flow p.steam

/-- The channels that TURBINE names. -/
def TurbineRecord.named (t : TurbineRecord) : List Named :=
  [⟨7, 0, t.speed, .speed⟩, ⟨7, 0, t.lube, .press⟩, ⟨7, 0, t.gear, .state⟩, ⟨7, 0, t.purity, .purity⟩]
    ++ Named.maybe 7 0 .state t.field

/-- The channels that HEATING names while enabled. -/
def HeatingRecord.named (h : HeatingRecord) : List Named :=
  if h.enable then
    [⟨6, 0, h.outdoor, .temp⟩, ⟨6, 0, h.districtReturn, .temp⟩, ⟨6, 0, h.districtSupply, .temp⟩, ⟨6, 0, h.districtFlow, .flow⟩,
     ⟨6, 0, h.brineInlet, .temp⟩, ⟨6, 0, h.brineOutlet, .temp⟩, ⟨6, 0, h.brineFlow, .flow⟩]
  else []

/-- The channels that a point in use names. -/
def PointRecord.named (i : Int) (p : PointRecord) : List Named :=
  if p.inUse then ⟨4, i, p.temp, .temp⟩ :: (if p.lab then [] else Named.maybe 4 i .conc p.silica) else []

/-- Every channel named by a record in effect, in the order of tests 6 to 8 (R56). -/
def namedChannels (s : State) : List Named :=
  ((List.finRange 16).flatMap fun i => s.wsv.wells[i].cfg.named i.val) ++ s.wsv.plant.named ++ s.tgd.cfg.named
    ++ s.hxu.cfg.named ++ ((List.finRange 8).flatMap fun i => s.scm.points[i].cfg.named i.val)

/-- Test 6: every channel so named is in use. -/
def checkChannelsUsed (s : State) : Option Failure :=
  firstFailure (fun n => if s.acq.chans[n.channel].cfg.inUse then none else some ⟨6, n.table, n.index, 3, n.channel.val⟩)
    (namedChannels s)

/-- Test 7: every such channel is of the kind of Table 4-5. -/
def checkChannelKinds (s : State) : Option Failure :=
  firstFailure (fun n => if s.acq.chans[n.channel].cfg.kind = n.kind then none else some ⟨7, n.table, n.index, 4, n.channel.val⟩)
    (namedChannels s)

/-- The scaling points named by reinjection wells and by HEATING while enabled, with table id and index. -/
def namedPoints (s : State) : List (Int × Int × PointNo) :=
  ((List.finRange 16).filterMap fun i =>
      if s.wsv.wells[i].cfg.role = .reinjection then s.wsv.wells[i].cfg.point.map fun p => ((2 : Int), (i.val : Int), p) else none)
    ++ (if s.hxu.cfg.enable then s.hxu.cfg.floorPoint.toList.map fun p => ((6 : Int), (0 : Int), p) else [])

/-- Test 8: every such point is in use. -/
def checkPointsUsed (s : State) : Option Failure :=
  firstFailure (fun n => if s.scm.points[n.2.2].cfg.inUse then none else some ⟨8, n.1, n.2.1, 9, n.2.2.val⟩) (namedPoints s)

/-- Test 9: the solubility curve of every point in use holds at least 2 points. -/
def checkSolubilityCurves (s : State) : Option Failure :=
  firstFailure (fun i : PointNo =>
    let p := s.scm.points[i].cfg
    if p.inUse ∧ s.scm.curves[p.curve].length < 2 then some ⟨9, 4, i.val, 7, p.curve.val⟩ else none) (List.finRange 8)

/-- Test 10: while HEATING is enabled, the heating curve holds at least 2 points. -/
def checkHeatCurve (s : State) : Option Failure :=
  if s.hxu.cfg.enable ∧ s.hxu.curve.length < 2 then some ⟨10, 5, 0, 8, 0xFF⟩ else none

/-- The consistency check: the first failure in the order of Table 4-4 (R56). -/
def consistency (s : State) : Option Failure :=
  firstFailure (fun test => test s)
    [checkChannelPositions, checkOutputPositions, checkOutputSources, checkOutputWells, checkWellOutputs, checkChannelsUsed,
     checkChannelKinds, checkPointsUsed, checkSolubilityCurves, checkHeatCurve]

end Sys2Proof.Machine
end

