-- ==== Sys2Proof/Machine/Heat.lean ====
section
/-! DEFINITION. HXU, the heat exchange unit (chapter 7): the floor, the plan, the valve demand, the outlet guard, the energy
meter, the deficit, and its two requests. -/

namespace Sys2Proof.Machine

/-- Table 7-5: the runtime state of HXU after each reset; the record, the curve and the energy counter are kept (R134). -/
def Hxu.reset (h : Hxu) : Hxu :=
  { h with fig := .init, heldCount := 0, planHeld := false, inputMarks := Vector.replicate 7 false, engaged := false,
           guardCount := 0, reduction := 0, deficit := false, deficitCount := 0, scalingLimited := false, lastSnap := none }

/-- The seven channels in the order of their input numbers (R121). -/
def HeatingRecord.inputs (c : HeatingRecord) : Vector ChannelNo 7 :=
  #v[c.outdoor, c.districtReturn, c.districtSupply, c.districtFlow, c.brineInlet, c.brineOutlet, c.brineFlow]

/-- A duty in kW from a flow, a specific heat and a temperature difference (section 7.4); 0 for a difference that is not above
0. -/
def duty (flow cp dT : Int) : Int := if 0 < dT then roundDiv (flow * cp * dT) 100000 else 0

/-! ## The input reports (R121) -/

/-- One input read: a fresh STALE is reported, a usable reading clears the mark. -/
def noteInput (s : State) (i : Fin 7) : State :=
  let ch := s.hxu.cfg.inputs[i]
  let stale := !(s.view.reading ch).usable
  raiseIf (stale && !s.hxu.inputMarks[i]) .heatInputStale ch.val i.val
    { s with hxu := { s.hxu with inputMarks := s.hxu.inputMarks.set i stale } }

/-- Each of the seven channels is read at every snapshot (R121); the reports precede the phases' events (log 18), and among
themselves they come in ascending input number (log 39). -/
def hxuInputs (s : State) : State := (List.finRange 7).foldl noteInput s

/-! ## Phase 1, the floor (R122, R123) -/

/-- The held count after the floor point's validity (R122). -/
def heldNext (v : Validity) (n : Nat) : Nat :=
  match v with
  | .held => min 255 (n + 1)
  | .valid => 0
  | .invalid => 0

/-- The point floor can be trusted (R122). -/
def floorTrusted (v : Validity) (held limit : Nat) : Bool :=
  match v with
  | .valid => true
  | .held => decide (held ≤ limit)
  | .invalid => false

/-- The floor source and T_fl (R122), given the floor point's record and the held count. -/
def HeatingRecord.floor (c : HeatingRecord) (held : Nat) (r : Option PointResult) : FloorSource × Int :=
  match r with
  | none => (.absolute, c.absFloor)
  | some r =>
    if floorTrusted r.validity held c.floorHold then (.point, max c.absFloor r.tFloor) else (.fallback, max c.absFloor c.fallFloor)

/-- The event of a change of source (R123). -/
def floorReport (was : FloorSource) (isNow : FloorSource) (p : PointNo) (fallFloor pointFloor : Int) : List Report :=
  match was, isNow with
  | .point, .fallback => [⟨.heatFloorFallback, p.val, fallFloor⟩]
  | .fallback, .point => [⟨.heatFloorPoint, p.val, pointFloor⟩]
  | _, _ => []

/-- Phase 1 (R122, R123). -/
def hxuFloor (s : State) : State :=
  let h := s.hxu
  let r := h.cfg.floorPoint.map fun p => s.view.points[p]
  let held := match r with
    | none => h.heldCount
    | some r => heldNext r.validity h.heldCount
  let f := h.cfg.floor held r
  let s' := { s with hxu := { h with heldCount := held, fig := { h.fig with source := f.1, tFl := f.2 } } }
  match h.cfg.floorPoint with
  | none => s'
  | some p => raiseAll (floorReport h.fig.source f.1 p h.cfg.fallFloor s.view.points[p].tFloor) s'

/-! ## Phase 2, the plan (R124 to R126) -/

/-- The five plan inputs are usable. -/
def HeatingRecord.planInputs (c : HeatingRecord) (v : View) : Bool :=
  (v.reading c.outdoor).usable && (v.reading c.districtReturn).usable && (v.reading c.districtFlow).usable
    && (v.reading c.brineInlet).usable && (v.reading c.brineFlow).usable

/-- The supply setpoint (R124). -/
def Hxu.setpoint (h : Hxu) (v : View) : Int :=
  clamp h.cfg.setMin h.cfg.setMax (interpolate (v.reading h.cfg.outdoor).value h.curve + v.active.shift)

/-- The required duty for a setpoint (R124). -/
def Hxu.required (h : Hxu) (v : View) (tSp : Int) : Int :=
  duty (v.reading h.cfg.districtFlow).value h.cfg.cpD (tSp - (v.reading h.cfg.districtReturn).value)

/-- The available duty above a floor (R125). -/
def Hxu.available (h : Hxu) (v : View) (tFl : Int) : Int :=
  duty (v.reading h.cfg.brineFlow).value h.cfg.cpB ((v.reading h.cfg.brineInlet).value - tFl)

/-- The plan demand of a planned duty (R125). -/
def planDemand (qPlan qRated : Int) : Int := min (roundDiv (qPlan * 1000) qRated) 1000

/-- Phase 2 (R124 to R126): the plan computed, or held. -/
def hxuPlan (s : State) : State :=
  let h := s.hxu
  if h.cfg.planInputs s.view then
    let tSp := h.setpoint s.view
    let qReq := h.required s.view tSp
    let qAvail := h.available s.view h.fig.tFl
    let qPlan := min qReq qAvail
    { s with hxu := { h with
        planHeld := false
        fig := { h.fig with tSp := tSp, qReq := qReq, qAvail := qAvail, qPlan := qPlan, plan := planDemand qPlan h.cfg.qRated } } }
  else { s with hxu := { h with planHeld := true } }

/-! ## Phase 3, the outlet guard (R128, R129) -/

/-- The engagement test with the guard DISENGAGED (R128). -/
def guardEngage (outlet : Reading) (s : State) : State :=
  let h := s.hxu
  let n := persist outlet (decide (outlet.value < h.fig.tFl - h.cfg.guardBand)) h.guardCount
  if outlet.usable ∧ h.cfg.guardPersistence ≤ n then
    raise .heatGuardOn 0 outlet.value { s with hxu := { h with engaged := true, guardCount := 0 } }
  else { s with hxu := { h with guardCount := n } }

/-- The reduction adjusted with the guard ENGAGED (R129). -/
def guardAdjust (outlet : Reading) (s : State) : State :=
  let h := s.hxu
  if !outlet.usable then s
  else if outlet.value < h.fig.tFl then { s with hxu := { h with reduction := min 1000 (h.reduction + h.cfg.guardStep) } }
  else if h.fig.tFl + h.cfg.guardBand ≤ outlet.value then
    let r := max 0 (h.reduction - h.cfg.guardStep)
    if r = 0 then raise .heatGuardOff 0 0 { s with hxu := { h with reduction := 0, engaged := false, guardCount := 0 } }
    else { s with hxu := { h with reduction := r } }
  else s

/-- The engagement test, while the guard is DISENGAGED. -/
def guardTest (outlet : Reading) (s : State) : State := if s.hxu.engaged then s else guardEngage outlet s

/-- The adjustment, while the guard is ENGAGED. -/
def guardMove (outlet : Reading) (s : State) : State := if s.hxu.engaged then guardAdjust outlet s else s

/-- Phase 3 (R128, R129): the first step is taken at the snapshot that engages the guard. -/
def hxuGuard (s : State) : State :=
  let outlet := s.view.reading s.hxu.cfg.brineOutlet
  guardMove outlet (guardTest outlet s)

/-! ## Phase 4, the valve demand (R127) -/

/-- The mode in which a snapshot was published is SUPERVISE or LEAVING. -/
def View.supervised (v : View) : Bool := decide (v.mode = .supervise ∨ v.mode = .leaving)

/-- A HEAT_VALVE demand update, when the snapshot was published in SUPERVISE or LEAVING (R121, R127). -/
def deliverHeat (d : Int) (s : State) : State := if s.view.supervised then deliver .heatValve d s else s

/-- The heating valve demand (R127). -/
def valveDemand (plan ceiling reduction : Int) : Int := max 0 (min plan ceiling - reduction)

/-- Phase 4 (R127). -/
def hxuValve (s : State) : State :=
  let d := valveDemand s.hxu.fig.plan s.view.active.heatCeiling s.hxu.reduction
  deliverHeat d { s with hxu := { s.hxu with fig := { s.hxu.fig with valve := d } } }

/-! ## Phase 5, the meter (R130, R131) -/

/-- mJ in a kilowatt-hour (R130). -/
def mjPerKwh : Int := 3600000000

/-- The greatest value of the energy counter (R131). -/
def energyMax : Nat := 4294967295

/-- The three channels of the meter are usable. -/
def HeatingRecord.meterInputs (c : HeatingRecord) (v : View) : Bool :=
  (v.reading c.districtSupply).usable && (v.reading c.districtReturn).usable && (v.reading c.districtFlow).usable

/-- The delivered duty (R130). -/
def Hxu.delivered (h : Hxu) (v : View) : Int :=
  duty (v.reading h.cfg.districtFlow).value h.cfg.cpD
    ((v.reading h.cfg.districtSupply).value - (v.reading h.cfg.districtReturn).value)

/-- Energy in mJ added: whole kilowatt-hours leave the residue for the counter, which saturates (R130, R131). -/
def Hxu.addEnergy (h : Hxu) (mj : Int) : Hxu :=
  let total := h.residue + mj
  let counter := h.energy + (total / mjPerKwh).toNat
  { h with residue := total % mjPerKwh, energy := min energyMax counter, saturated := h.saturated || decide (energyMax < counter) }

/-- Phase 5 (R130). -/
def hxuMeter (s : State) : State :=
  if s.hxu.cfg.meterInputs s.view then
    let q := s.hxu.delivered s.view
    let h := { s.hxu with fig := { s.hxu.fig with qDel := q } }
    match s.view.interval with
    | none => { s with hxu := h }
    | some us => { s with hxu := h.addEnergy (q * us.toNat) }
  else s

/-! ## Phase 6, the deficit (R132) -/

/-- Phase 6 (R132), after phases 2 and 5 of the same snapshot. -/
def hxuDeficit (s : State) : State :=
  let h := s.hxu
  let limited := decide (h.fig.qAvail < h.fig.qReq)
  let h := if h.deficit && !h.planHeld then { h with scalingLimited := limited } else h
  if h.planHeld || !h.cfg.meterInputs s.view then { s with hxu := h }
  else
    let shortfall := h.fig.qReq - h.fig.qDel
    let short := decide (h.cfg.deficitKw < shortfall)
    if h.deficit = short then { s with hxu := { h with deficitCount := 0 } }
    else if h.deficitCount + 1 < h.cfg.deficitPersistence then { s with hxu := { h with deficitCount := h.deficitCount + 1 } }
    else if h.deficit then
      raise .heatDeficitEnd 0 0 { s with hxu := { h with deficit := false, deficitCount := 0, scalingLimited := false } }
    else
      raise .heatDeficit (bit limited) shortfall
        { s with hxu := { h with deficit := true, deficitCount := 0, scalingLimited := limited } }

/-! ## Processing a snapshot (R121) -/

/-- The six phases (R121). -/
def hxuPhases (s : State) : State :=
  hxuDeficit (hxuMeter (hxuValve (hxuGuard (hxuPlan (hxuFloor (hxuInputs s))))))

/-- HXU processes the snapshot of the view (R121). -/
def hxuProcess (s : State) : State :=
  if s.todo.hxu then
    let s := { s with todo := { s.todo with hxu := false }, hxu := { s.hxu with lastSnap := some s.view.number } }
    if s.hxu.cfg.enable then hxuPhases s else deliverHeat 0 s
  else s

/-! ## Requests (R131, R133) -/

/-- The 41 bytes of READ_HEAT (Table 7-3). -/
def heatBytes (h : Hxu) : List Byte :=
  put8 (flagByte [h.cfg.enable, h.planHeld, h.engaged, h.deficit, h.scalingLimited, h.saturated]) ++ put8 h.fig.source.code
    ++ put16 h.fig.tSp ++ put16 h.fig.tFl ++ put32 h.fig.qReq ++ put32 h.fig.qAvail ++ put32 h.fig.qPlan ++ put16 h.fig.plan
    ++ put16 h.reduction ++ put16 h.fig.valve ++ put32 h.fig.qDel ++ put32 h.energy ++ put32 h.residue ++ put8 h.guardCount
    ++ put8 h.deficitCount ++ put8 h.heldCount ++ put16 (h.lastSnap.getD 0).toInt

/-- READ_HEAT (R133). -/
def readHeat : Handler := fun p s =>
  match p with
  | [] => answer .ok (heatBytes s.hxu) s
  | _ => refuse .badLength s

/-- CLEAR_ENERGY (R131). -/
def clearEnergy : Handler := fun p s =>
  match p with
  | [] =>
    answer .ok (put32 s.hxu.energy)
      (raise .heatEnergyCleared 0 s.hxu.energy { s with hxu := { s.hxu with energy := 0, residue := 0, saturated := false } })
  | _ => refuse .badLength s

def execReadHeat (r : Request) (s : State) : Host.Outcome State Fault Refusal := live s (goodFrame 0x18 readHeat r)
def execClearEnergy (r : Request) (s : State) : Host.Outcome State Fault Refusal := live s (goodFrame 0x19 clearEnergy r)
def execHxuProcessSnapshot (s : State) : Host.Outcome State Fault Refusal := live s hxuProcess

end Sys2Proof.Machine
end

