-- ==== Sys2Proof/Machine/Outputs.lean ====
section
/-! DEFINITION. OUT, the output unit (chapter 3): the line code, OUTPUT_CMD, READ_OUTPUTS, and the unit's reset. Demand updates
and the fail-safe state stand in Ops.lean. -/

namespace Sys2Proof.Machine

/-- The line code of an output in use (Table 3-4); in CONFIG the code it would have in STANDBY (R51). -/
def Output.lineCode (mode : Mode) (failSafe : Bool) (o : Output) : Word :=
  if o.outOfService then holdCode
  else match mode with
    | .config => holdCode
    | .standby => holdCode
    | .supervise => BitVec.ofInt 16 (if failSafe then o.cfg.failSafe else o.issued)
    | .leaving => BitVec.ofInt 16 (if failSafe then o.cfg.failSafe else o.issued)

/-- R52: the runtime state of OUT after each reset, the OUTPUT records kept. -/
def Out.reset (u : Out) : Out := { outs := u.outs.map fun o => Output.init o.cfg, failSafe := false }

/-- The output with its out-of-service mark as given. -/
def Out.mark (u : Out) (i : OutputNo) (b : Bool) : Out := { u with outs := u.outs.set i { u.outs[i] with outOfService := b } }

/-- SERVICE_OUT sets the mark, SERVICE_IN clears it; the payload is the issued value (R49). -/
def outputService (i : OutputNo) (outOfService : Bool) (s : State) : Answer × State :=
  let o := s.out.outs[i]
  if !o.cfg.inUse then refuse .wrongState s
  else if o.outOfService = outOfService then answer .already (put16 o.issued) s
  else answer .ok (put16 o.issued) { s with out := s.out.mark i outOfService }

/-- OUTPUT_CMD (R49). Refused with BAD_VALUE on a valid index, or with WRONG_STATE, it carries no issued value (log 9). -/
def outputCmd : Handler := fun p s =>
  match p with
  | [idx, cmd] =>
    match index? 64 (idx.toNat : Int) with
    | none => refuse .badIndex s
    | some i =>
      if cmd = 0 then outputService i true s
      else if cmd = 1 then outputService i false s
      else refuse .badValue s
  | _ => refuse .badLength s

/-- One entry of READ_OUTPUTS (Table 3-5); an output not in use shows its reset values and the hold code (R51). -/
def Output.entry (mode : Mode) (failSafe : Bool) (o : Output) : List Byte :=
  let code := if o.cfg.inUse then o.lineCode mode failSafe else holdCode
  put16 (if o.cfg.inUse then o.demand else 0) ++ put16 (if o.cfg.inUse then o.issued else 0) ++ put16 code.toInt
    ++ put8 (flagByte [o.cfg.inUse, o.outOfService, o.cfg.source.discrete, o.cfg.inUse && o.rise])
    ++ put8 (16 * o.cfg.source.code + o.cfg.source.index)

/-- READ_OUTPUTS (R51). -/
def readOutputs : Handler := fun p s =>
  match p with
  | [first, count] =>
    match rangeCheck 64 16 first.toNat count.toNat with
    | some st => refuse st s
    | none =>
      answer .ok ([first, count] ++ put8 (flagByte [s.lif.blind, s.out.failSafe])
        ++ ((s.out.outs.toList.drop first.toNat).take count.toNat).flatMap (Output.entry s.mbc.mode s.out.failSafe)) s
  | _ => refuse .badLength s

def execOutputCmdServiceOut (r : Request) (s : State) : Host.Outcome State Fault Refusal := live s (goodFrame 0x0F outputCmd r)
def execOutputCmdServiceIn (r : Request) (s : State) : Host.Outcome State Fault Refusal := live s (goodFrame 0x0F outputCmd r)
def execReadOutputs (r : Request) (s : State) : Host.Outcome State Fault Refusal := live s (goodFrame 0x10 readOutputs r)

end Sys2Proof.Machine
end

