-- ==== Sys2Proof/Machine/LoopOps.lean ====
section
/-! DEFINITION. LIF, the loop interface (chapter 1): the moves of the receiver and what they bring to other blocks, the error
counters, and the outbound frame. -/

namespace Sys2Proof.Machine

/-- The blind time used, in ms: that of the LOOP record, raised to the minimum of the selected rate (R17). -/
def Lif.blindMs (l : Lif) : Nat := max l.cfg.blindMs (minBlindMs l.selected)

/-- The blind timer started (R17). -/
def Lif.startBlind (l : Lif) (now : Time) : Lif := { l with blindTimer := some ⟨now, l.blindMs * 1000⟩ }

/-- The scan being collected discarded: no position taken, continuity broken (R8, R9, R13). -/
def Lif.discardScan (l : Lif) : Lif := { l with buffer := Vector.replicate 168 none, continuous := false }

/-- The counts with which FRAMED is entered (R8, R10). -/
def Lif.clearCounts (l : Lif) : Lif := { l with qualifying := 0, run := 0, badAlign := 0 }

/-- Entry into HUNT at the selected rate: a hunt interval of 32 frame times, no candidate (R6, R8). The expected index is left
as it is (log 29). -/
def Lif.enterHunt (l : Lif) (now : Time) : Lif :=
  { l.discardScan.clearCounts with
    rx := .hunt, trial := none, hunt := some ⟨now, 32 * frameUs l.selected⟩, dwell := none, ended := false, candidate := none,
    huntFrom := 0 }

/-- The last line transition when the last of a number of bits arrives now, given the place of their last change (R1). -/
def Lif.edgeAt (l : Lif) (now : Time) (count : Nat) : Option Nat → Time
  | none => l.edge
  | some n => now - BitVec.ofNat 48 ((count - n) * bitUs l.selected)

/-- The last line transition once the last of these bits arrives now: in NRZ one stands where a bit begins that differs from the one
before it (R1, R13; log 43). -/
@[irreducible] def Lif.edgeAfter (l : Lif) (now : Time) (count : Nat) (level : Bool) (bits : List Bool) : Time :=
  l.edgeAt now count (lastChange level bits)

/-- The line watched through a frame whose last bit arrives now (R13). -/
def Lif.watch (l : Lif) (f : LoopFrame) (now : Time) : Lif :=
  { l with edge := l.edgeAfter now 480 l.level (frameBits f), frameEnd := now, level := f.service.getLsbD 0 }

/-- The line watched through a run of 16 bits of the frame in progress (R13). -/
def Lif.watchRun (l : Lif) (bits : Word) (now : Time) : Lif :=
  { l with edge := l.edgeAfter now 16 bits.msb (bitsSent bits) }

/-- No transition stands within 2 frame times of the last one known, given how long ago that was and the place of the first change
in a frame whose last bit arrives now. -/
def silentUntil (rate : Rate) (since : Nat) : Option Nat → Bool
  | none => decide (2 * frameUs rate < since)
  | some n => decide (2 * frameUs rate + (480 - n) * bitUs rate < since)

/-- The line fell silent for 2 frame times before a frame whose last bit arrives now brought its first transition, or its end
(R13). -/
@[irreducible] def Lif.fellSilent (l : Lif) (f : LoopFrame) (now : Time) : Bool :=
  silentUntil l.selected (elapsed l.edge now) (firstChange l.level (frameBits f))

/-- The receiver watches the line in FRAMED and LOCKED (R13). -/
def RxState.watches : RxState → Bool
  | .framed => true
  | .locked => true
  | _ => false

/-- The 2 frame times without a transition that end the lock (R13). -/
def Lif.silence (l : Lif) : Timer := ⟨l.edge, 2 * frameUs l.selected⟩

/-- In FRAMED and LOCKED the line has been silent for 2 frame times, and no frame in progress can show otherwise (R13; log 43). -/
def Lif.silent (l : Lif) (now : Time) : Bool :=
  l.rx.watches && decide (2 * frameUs l.selected ≤ elapsed l.edge now) && decide (frameUs l.selected < elapsed l.frameEnd now)

/-- A search dwell at a code begins (R7). -/
def Lif.searchAt (l : Lif) (code : Rate) (now : Time) : Lif :=
  { l with rx := .search, trial := some code, hunt := none, dwell := some ⟨now, 6 * frameUs code⟩, ended := false,
           candidate := none, huntFrom := 0 }

/-- The code tried after a code: 3, 2, 1, 0, then 3 again (R7). -/
def nextCode (c : Rate) : Rate := if c = 3 then 2 else if c = 2 then 1 else if c = 1 then 0 else 3

/-- LIF leaves OFF on the exit from CONFIG (R4, R19). -/
def Lif.start (l : Lif) (now : Time) : Lif :=
  let l := { l with selected := l.cfg.rate }
  let l := if l.cfg.autoRate then l.searchAt 3 now else l.enterHunt now
  { l.startBlind now with tx := { l.tx with timer := some ⟨now, 0⟩, next := none } }

/-- The receiver has left LOCKED: LIF raises UNLOCK, and TGD returns the chain to its beginning (R8, R9, R13, R111). -/
def leftLocked (why : Int) (s : State) : State := eitherOrder (raise .loopUnlock 0 why) chainReset s

/-- The end of BLIND (R18, R48). -/
def endBlind (s : State) : State :=
  if s.lif.blind then
    let s := raise .loopBlindEnd 0 0 { s with lif := { s.lif with blind := false } }
    { s with out := s.out.leaveFailSafe s.mbc.mode }
  else s

/-- The receiver enters LOCKED (R10, R17, R18). -/
def enterLocked (s : State) : State :=
  endBlind (raise .loopLock 0 s.lif.selected.val { s with lif := { s.lif.discardScan with rx := .locked, blindTimer := none } })

/-! ## Error counters (R15) -/

/-- The saturation value of a counter width (R15). -/
def saturationOf (width : Nat) : Nat := if width = 8 then 255 else 1023

/-- The three error counters, with the subject of COUNTER_FULL (R15). -/
inductive ErrorKind where
  | alignment | check | sequence
  deriving DecidableEq, Repr

/-- The subject of COUNTER_FULL (R15). -/
def ErrorKind.subject : ErrorKind → Int
  | .alignment => 0
  | .check => 1
  | .sequence => 2

/-- A counter of LIF. -/
def Lif.counter (l : Lif) : ErrorKind → ErrorCounter
  | .alignment => l.alignErr
  | .check => l.checkErr
  | .sequence => l.seqErr

/-- A counter of LIF replaced. -/
def Lif.setCounter (l : Lif) (k : ErrorKind) (c : ErrorCounter) : Lif :=
  match k with
  | .alignment => { l with alignErr := c }
  | .check => { l with checkErr := c }
  | .sequence => { l with seqErr := c }

/-- A counter increased by one (R15). -/
def ErrorCounter.bump (top : Nat) (c : ErrorCounter) : ErrorCounter :=
  { count := min top (c.count + 1), full := c.full || decide (top ≤ c.count + 1) }

/-- An error counted; a counter brought to saturation with its full mark clear raises COUNTER_FULL (R15). -/
def countError (k : ErrorKind) (s : State) : State :=
  let top := saturationOf s.lif.cfg.counterWidth
  let c := s.lif.counter k
  let c' := c.bump top
  raiseIf (c'.full && !c.full) .loopCounterFull k.subject top { s with lif := s.lif.setCounter k c' }

/-! ## The outbound frame (R19, R20) -/

/-- A position's place among the 168 of a scan. -/
def Position.index (p : Position) : Fin 168 := ⟨p.frame.val * 28 + p.slot.val, by have := p.frame.isLt; have := p.slot.isLt; omega⟩

/-- The mode sends line codes (R20). -/
def Mode.drives : Mode → Bool
  | .supervise => true
  | .leaving => true
  | .config => false
  | .standby => false

/-- The value fixed for an outbound position at a scan start (R20, R50). -/
def slotValue (mode : Mode) (u : Out) (k : Fin 168) : Word :=
  if mode.drives then
    match u.outs.toList.find? fun o => o.cfg.inUse && decide (o.cfg.pos.index = k) with
    | none => holdCode
    | some o => o.lineCode mode u.failSafe
  else holdCode

/-- The frame of an index as it goes out, with bit 12 as sampled (R19). -/
def Transmitter.frame (t : Transmitter) (k : Fin 6) (bit12 : Bool) : LoopFrame :=
  let slots := Vector.ofFn fun j : Fin 28 => t.slots[Position.index ⟨k, j⟩]
  { align := outboundAlign, slots := slots, service := serviceWord k bit12 t.bit11 (checkByte slots) }

/-- The level of the LTX pair at a time-base value: in NRZ, bit n of the frame begun last through its n-th bit time (R1), and the
idle level 1 while the transmitter is stopped and before a frame has begun (R19). -/
def Transmitter.level (t : Transmitter) (now : Time) : Bool :=
  match t.timer, t.line with
  | some timer, some f => if timer.due now then true else (frameBits f).getD (elapsed timer.start now / bitUs t.rate) true
  | _, _ => true

end Sys2Proof.Machine
end

