-- ==== Sys2Proof/Machine/Scaling.lean ====
section
/-! DEFINITION. SCM, the scaling monitor (chapter 8): the plant concentration factor, the arithmetic of a point, held results,
the alarm states, and its three requests. -/

namespace Sys2Proof.Machine

/-- Table 8-8: the runtime state of SCM after each reset, both tables kept (R153). -/
def Scm.reset (m : Scm) : Scm :=
  { m with points := m.points.map fun p => Point.init p.cfg
           cf := 1000, cfState := .none, cfHeld := 0, fProd := 0, fBrine := 0, lastSnap := none }

/-- A publication takes up every pending laboratory value (R137). -/
def Point.takeLab (p : Point) : Point :=
  match p.pendingLab with
  | none => p
  | some v => { p with labValue := some v, pendingLab := none }

/-- Every point's pending laboratory value taken up (R137). -/
def Scm.takeLabs (m : Scm) : Scm := { m with points := m.points.map Point.takeLab }

/-! ## Part 1, the plant concentration factor (R139, R140) -/

/-- What a well adds to F_prod (R139). -/
def Well.production (v : View) (w : Well) : Int :=
  if w.cfg.role = .production ∧ (v.reading w.cfg.flow).usable then (v.reading w.cfg.flow).value else 0

/-- F_prod (R139). -/
def Wsv.flowProduced (w : Wsv) (v : View) : Int := (w.wells.toList.map (Well.production v)).sum

/-- The factor computed from the two flows (R139). -/
def factor (fProd fBrine : Int) : Int := clamp 1000 4000 (roundDiv (fProd * 1000) fBrine)

/-- CF computed (R139, R140). -/
def cfComputed (s : State) : State :=
  let m := s.scm
  let cf := factor m.fProd m.fBrine
  raiseIf (decide (m.cfState = .held)) .scaleCfValid 0 cf { s with scm := { m with cf := cf, cfState := .valid, cfHeld := 0 } }

/-- CF not computed, with the parameter of CF_HELD (R140). -/
def cfNotComputed (why : Int) (s : State) : State :=
  let m := s.scm
  match m.cfState with
  | .valid => raise .scaleCfHeld 0 why { s with scm := { m with cfState := .held, cfHeld := 1 } }
  | .held => { s with scm := { m with cfHeld := min 255 (m.cfHeld + 1) } }
  | .none => s

/-- Part 1 (R139, R140). -/
def scmFactor (s : State) : State :=
  let r := s.wsv.plant.brine.map s.view.reading
  let brine := match r with
    | none => 0
    | some r => if r.usable then r.value else 0
  let s := { s with scm := { s.scm with fProd := s.wsv.flowProduced s.view, fBrine := brine } }
  match r with
  | none => cfNotComputed 2 s
  | some r => if !r.usable then cfNotComputed 1 s else if 0 < r.value then cfComputed s else cfNotComputed 2 s

/-! ## The inputs of a point (R141) -/

/-- The silica of a point, when it is available (R141). -/
def Point.silica (p : Point) (v : View) : Option Int :=
  if p.cfg.lab then p.labValue
  else match p.cfg.silica with
    | none => none
    | some c => if (v.reading c).usable then some (v.reading c).value else none

/-- The concentration factor is acceptable to a point (R141). -/
def Scm.accepts (m : Scm) (c : PointRecord) : Bool :=
  c.unity || match m.cfState with
    | .valid => true
    | .held => decide (m.cfHeld ≤ c.holdLimit)
    | .none => false

/-- The inputs that fail: temperature, silica, concentration factor (R147). -/
def Scm.failed (m : Scm) (v : View) (p : Point) : List Bool :=
  [!(v.reading p.cfg.temp).usable, (p.silica v).isNone, !m.accepts p.cfg]

/-! ## Stages 2 to 5 (R142 to R145) -/

/-- Stage 2, the effective concentration (R142). -/
def effective (c cf : Int) : Int := roundDiv (c * cf) 1000

/-- Stage 4, the saturation index (R144). -/
def saturation (cEff sol : Int) : Int := if 0 < sol then min 65535 (roundDiv (cEff * 1000) sol) else 65535

/-- The required solubility of stage 5 (R145). -/
def requiredSolubility (cEff limit : Int) : Int := ceilDiv (cEff * 1000) limit

/-! ## The alarm state (R148, R149) -/

/-- What the state tests move. -/
structure Alarm where
  state : AlarmState
  alarmCount : Nat
  clearCount : Nat
  unack : Bool
  deriving DecidableEq, Repr

/-- Tests 2 and 3 for a point in WATCH (R148). -/
def Alarm.watch (c : PointRecord) (si : Int) (a : Alarm) : Alarm :=
  let n := if c.alarm ≤ si then min 255 (a.alarmCount + 1) else 0
  if c.alarm ≤ si ∧ c.alarmPersistence ≤ n then { state := .alarm, alarmCount := n, clearCount := 0, unack := true }
  else if si < c.warn - c.hysteresis then { a with state := .normal, alarmCount := 0 }
  else { a with state := .watch, alarmCount := n }

/-- Test 4 for a point in ALARM (R148, R149). -/
def Alarm.falling (c : PointRecord) (si : Int) (a : Alarm) : Alarm :=
  let n := if si < c.alarm - c.hysteresis then min 255 (a.clearCount + 1) else 0
  if si < c.alarm - c.hysteresis ∧ c.clearPersistence ≤ n then { a with state := .watch, alarmCount := 0, clearCount := n }
  else { a with clearCount := n }

/-- The state tests in order (R148). -/
def Alarm.step (c : PointRecord) (si : Int) (a : Alarm) : Alarm :=
  match a.state with
  | .normal => if c.warn ≤ si then Alarm.watch c si { a with state := .watch, alarmCount := 0 } else a
  | .watch => Alarm.watch c si a
  | .alarm => Alarm.falling c si a

/-- The event of a move into or out of ALARM (R149). -/
def alarmReport (was isNow : AlarmState) (p : PointNo) (si : Int) : List Report :=
  if was ≠ .alarm ∧ isNow = .alarm then [⟨.scaleAlarm, p.val, si⟩]
  else if was = .alarm ∧ isNow ≠ .alarm then [⟨.scaleAlarmEnd, p.val, si⟩]
  else []

/-! ## A point's result (R146, R147) -/

/-- The alarm part of a point. -/
def Point.alarm (p : Point) : Alarm := ⟨p.res.state, p.alarmCount, p.clearCount, p.res.unack⟩

/-- The result computed at a snapshot from good inputs (R141 to R149). -/
def Point.compute (p : Point) (curve : List CurvePoint) (cf : Int) (number : BitVec 16) (t c : Int) : Point :=
  let cEff := effective c (if p.cfg.unity then 1000 else cf)
  let sol := interpolate t curve
  let si := saturation cEff sol
  let fl := tempFloor (requiredSolubility cEff p.cfg.limit) curve
  let a := p.alarm.step p.cfg si
  { p with
    res := { si := si, s := sol, cEff := cEff, tFloor := fl.1, unreachable := fl.2, validity := .valid, state := a.state,
             unack := a.unack, number := number }
    heldCount := 0, alarmCount := a.alarmCount, clearCount := a.clearCount, tUsed := t, cUsed := c, computed := true }

/-- The events of a computed result, in the order of R138: VALID, FLOOR_UNREACHABLE, ALARM or ALARM_END. -/
def Point.computeReports (i : PointNo) (was isNow : Point) : List Report :=
  (if was.res.validity = .held ∨ (was.res.validity = .invalid ∧ was.computed) then [⟨.scaleValid, i.val, isNow.res.si⟩] else [])
    ++ (if isNow.res.unreachable ∧ !(was.computed ∧ was.res.unreachable) then
          [⟨.scaleFloorUnreachable, i.val, requiredSolubility isNow.res.cEff isNow.cfg.limit⟩] else [])
    ++ alarmReport was.res.state isNow.res.state i isNow.res.si

/-- The result held, or kept INVALID, at a snapshot whose inputs fail (R147). -/
def Point.hold (p : Point) : Point :=
  let n := min 255 (p.heldCount + 1)
  match p.res.validity with
  | .invalid => { p with heldCount := n }
  | _ => { p with heldCount := n, res := { p.res with validity := if n ≤ p.cfg.holdLimit then .held else .invalid } }

/-- The events of a held result (R147). -/
def Point.holdReports (i : PointNo) (failed : Int) (was isNow : Point) : List Report :=
  match was.res.validity, isNow.res.validity with
  | .valid, .held => [⟨.scaleHeld, i.val, failed⟩]
  | .held, .invalid => [⟨.scaleInvalid, i.val, isNow.heldCount⟩]
  | _, _ => []

/-- A point replaced. -/
def State.setPoint (s : State) (i : PointNo) (p : Point) : State := { s with scm := { s.scm with points := s.scm.points.set i p } }

/-- Part 2 for one point (R138). -/
def processPoint (s : State) (i : PointNo) : State :=
  let p := s.scm.points[i]
  let failed := s.scm.failed s.view p
  if !p.cfg.inUse then s
  else match failed.any id, p.silica s.view with
    | false, some c =>
      let q := p.compute s.scm.curves[p.cfg.curve] s.scm.cf s.view.number (s.view.reading p.cfg.temp).value c
      raiseAll (Point.computeReports i p q) (s.setPoint i q)
    | _, _ => raiseAll (Point.holdReports i (flagByte failed) p p.hold) (s.setPoint i p.hold)

/-- SCM processes the snapshot of the view (R138). -/
def scmProcess (s : State) : State :=
  if s.todo.scm then
    (List.finRange 8).foldl processPoint
      (scmFactor { s with todo := { s.todo with scm := false }, scm := { s.scm with lastSnap := some s.view.number } })
  else s

/-! ## Requests (R137, R150, R152) -/

/-- SET_LAB (R137). -/
def setLab : Handler := fun p s =>
  match p with
  | [i, _, _] =>
    match index? 8 (i.toNat : Int) with
    | none => refuse .badIndex s
    | some i =>
      let v := u16 p 1
      if 4000 < v then refuse .badValue s
      else
        answer .ok (put16 v) (raise .scaleLab i.val v (s.setPoint i { s.scm.points[i] with pendingLab := some v }))
  | _ => refuse .badLength s

/-- ACK_ALARM (R150). -/
def ackAlarm : Handler := fun p s =>
  match p with
  | [i] =>
    match index? 8 (i.toNat : Int) with
    | none => refuse .badIndex s
    | some i =>
      let q := s.scm.points[i]
      if !q.cfg.inUse then refuse .wrongState s
      else if q.res.unack then
        answer .ok (put8 q.res.state.code) (s.setPoint i { q with res := { q.res with unack := false } })
      else answer .already (put8 q.res.state.code) s
  | _ => refuse .badLength s

/-- The header of READ_SCALE (Table 8-4). -/
def scaleHeader (m : Scm) (first count : Byte) : List Byte :=
  put16 m.cf ++ put8 m.cfState.code ++ put8 m.cfHeld ++ put32 m.fProd ++ put32 m.fBrine ++ put16 (m.lastSnap.getD 0).toInt
    ++ [first, count]

/-- One entry of READ_SCALE (Table 8-5). -/
def Point.entry (p : Point) : List Byte :=
  put8 (flagByte [p.cfg.inUse, p.cfg.lab, p.cfg.unity, p.res.unreachable, p.res.unack, p.pendingLab.isSome])
    ++ put8 p.res.validity.code ++ put8 p.res.state.code ++ put8 p.heldCount ++ put8 p.alarmCount ++ put8 p.clearCount
    ++ put16 p.res.si ++ put16 p.res.s ++ put32 p.res.cEff ++ put16 p.res.tFloor ++ put16 p.tUsed ++ put16 p.cUsed
    ++ put16 (p.labValue.getD 0xFFFF) ++ put16 p.res.number.toInt

/-- READ_SCALE (R152). -/
def readScale : Handler := fun p s =>
  match p with
  | [first, count] =>
    match rangeCheck 8 8 first.toNat count.toNat with
    | some st => refuse st s
    | none =>
      answer .ok (scaleHeader s.scm first count
        ++ ((s.scm.points.toList.drop first.toNat).take count.toNat).flatMap Point.entry) s
  | _ => refuse .badLength s

def execSetLab (r : Request) (s : State) : Host.Outcome State Fault Refusal := live s (goodFrame 0x15 setLab r)
def execAckAlarm (r : Request) (s : State) : Host.Outcome State Fault Refusal := live s (goodFrame 0x16 ackAlarm r)
def execReadScale (r : Request) (s : State) : Host.Outcome State Fault Refusal := live s (goodFrame 0x17 readScale r)
def execScmProcessSnapshot (s : State) : Host.Outcome State Fault Refusal := live s scmProcess

end Sys2Proof.Machine
end

