-- ==== Sys2Proof/Machine/Modes.lean ====
section
/-! DEFINITION. MBC, the mode and bank controller (chapter 4): mode changes and the reset of the runtime state that they share
with RESTART, the banks, the host timer and the link state. -/

namespace Sys2Proof.Machine

/-! ## The reset shared by entry into CONFIG and RESTART (R60, R177) -/

/-- Table 2-7: the runtime part of ACQ after each reset, the records kept (R39). -/
def Acq.reset (a : Acq) : Acq :=
  { chans := a.chans.map fun c => Channel.init c.cfg, number := 0, prevStamp := none, interval := none, first := true }

/-- Table 4-10: the runtime state of MBC after each reset, FAILSAFE and TIMING kept (R71). -/
def Mbc.reset (m : Mbc) : Mbc :=
  { m with mode := .config, staging := .zero, pubBank := none, active := .zero, origin := .default, pubCount := 0, link := .linked,
           hostTimer := none }

/-- Every published record at its reset value (R38), for the wells' roles as they stand. -/
def State.resetView (s : State) : View := View.init (s.wsv.wells.map fun w => w.cfg.role.initState)

/-- No job has a snapshot to process (R38). -/
def Jobs.idle : Jobs := ⟨false, false, false, false, false, false⟩

/-- Entry into CONFIG and RESTART: every block's runtime state at its reset values, every table, the queue, the clock, the energy
counter and the ring kept; the attention line judged for the kept queue (R21, R38, R39, R52, R60, R71, R98, R118, R134, R153,
R162, R169). -/
def runtimeReset (s : State) : State :=
  { s with
    lif := Lif.init s.lif.cfg, acq := s.acq.reset, out := s.out.reset, mbc := s.mbc.reset, wsv := s.wsv.reset s.resetView,
    tgd := s.tgd.reset s.now s.resetView, hxu := s.hxu.reset, scm := s.scm.reset, evq := s.evq.judge, cap := s.cap.reset,
    view := s.resetView, todo := .idle }

/-! ## SET_MODE (R54 to R60) -/

/-- The mode becomes m, and MODE is raised (R53). -/
def changeMode (m : Mode) (s : State) : State := raise .bankMode 0 m.code { s with mbc := { s.mbc with mode := m } }

/-- The reply of SET_MODE: the mode after the request (R54). -/
def modeAnswer (st : Status) (s : State) : Answer × State := answer st (put8 s.mbc.mode.code) s

/-- The exit from CONFIG (R55, R4, R67). -/
def leaveConfig (s : State) : State :=
  let s := changeMode .standby s
  { s with lif := s.lif.start s.now
           mbc := { s.mbc with link := .linked, hostTimer := some (s.timerMs s.mbc.timing.hostMs) } }

/-- Entry into CONFIG (R60). -/
def enterConfig (s : State) : State := changeMode .config (runtimeReset s)

/-- Entry into LEAVING: MBC raises MODE, and WSV empties the start queue (R59, R88). -/
def enterLeaving (s : State) : State :=
  eitherOrder (raise .bankMode 0 Mode.leaving.code) emptyStartQueue { s with mbc := { s.mbc with mode := .leaving } }

/-- SET_MODE with target CONFIG (Table 4-3). -/
def setConfig (s : State) : Answer × State :=
  match s.mbc.mode with
  | .config => modeAnswer .already s
  | .standby => modeAnswer .ok (enterConfig s)
  | .supervise => modeAnswer .wrongMode s
  | .leaving => modeAnswer .wrongMode s

/-- SET_MODE with target STANDBY (Table 4-3). -/
def setStandby (s : State) : Answer × State :=
  match s.mbc.mode with
  | .config =>
    match consistency s with
    | some f => answer .badConfig (put8 0 ++ f.bytes) s
    | none => modeAnswer .ok (leaveConfig s)
  | .standby => modeAnswer .already s
  | .supervise => modeAnswer .ok (enterLeaving s)
  | .leaving => modeAnswer .already s

/-- SET_MODE with target SUPERVISE (Table 4-3). -/
def setSupervise (s : State) : Answer × State :=
  match s.mbc.mode with
  | .config => modeAnswer .wrongMode s
  | .standby => if s.lif.rx = .locked then modeAnswer .ok (changeMode .supervise s) else modeAnswer .wrongState s
  | .supervise => modeAnswer .already s
  | .leaving => modeAnswer .wrongMode s

/-- SET_MODE (R54). -/
def setMode : Handler := fun p s =>
  match p with
  | [m] =>
    if m = 0 then setConfig s
    else if m = 1 then setStandby s
    else if m = 2 then setSupervise s
    else refuse .badValue s
  | _ => refuse .badLength s

/-! ## Banks (R61 to R65) -/

/-- An item of STAGE: the field id and the value as carried (R62). -/
structure Item where
  field : Nat
  value : Int
  deriving DecidableEq, Repr

/-- The items of a STAGE payload. -/
def readItems : List Byte → List Item
  | f :: h :: l :: rest => ⟨f.toNat, (h ++ l : BitVec 16).toInt⟩ :: readItems rest
  | _ => []

/-- The value of an item after clamping: the shift to −200..+200, every other target to 0..1000 (R62). -/
def Item.clamped (i : Item) : Int := if i.field = 17 then clamp (-200) 200 i.value else clamp 0 1000 i.value

/-- One item written into a bank (R62). -/
def Bank.put (b : Bank) (i : Item) : Bank :=
  if h : i.field < 16 then { b with speeds := b.speeds.set i.field i.clamped }
  else if i.field = 16 then { b with heatCeiling := i.clamped }
  else if i.field = 17 then { b with shift := i.clamped }
  else if i.field = 18 then { b with bypass := i.clamped }
  else if h : i.field < 27 then { b with direct := b.direct.set (i.field - 19) i.clamped (by omega) }
  else b

/-- The number of items that clamping changes. -/
def clampedCount (is : List Item) : Nat := (is.filter fun i => decide (i.clamped ≠ i.value)).length

/-- STAGE (R62). -/
def stage : Handler := fun p s =>
  let is := readItems p
  if p.length % 3 ≠ 0 ∨ p.length = 0 ∨ 96 < p.length then refuse .badLength s
  else if s.mbc.link = .silent then refuse .linkLocked s
  else if is.any fun i => decide (26 < i.field) then refuse .badIndex s
  else
    answer .ok (put8 is.length ++ put8 (clampedCount is))
      { s with mbc := { s.mbc with staging := is.foldl Bank.put s.mbc.staging } }

/-- MBC tests PENDING at a snapshot (R64). -/
def activate (s : State) : State :=
  match s.mbc.pubBank with
  | none => s
  | some p =>
    raise .bankActivated 0 p.count.toNat
      { s with mbc := { s.mbc with active := p.bank, origin := .published p.count, pubBank := none } }

/-- The demand update of one DIRECT source, from the ACTIVE bank of the view (R64). -/
def directDemand (s : State) (i : Fin 8) : State := deliver (.direct i) s.view.active.direct[i] s

/-- One demand update for each of DIRECT 0..7 (R64). -/
def deliverDirect (s : State) : State := (List.finRange 8).foldl directDemand s

/-- The view shows a well STARTING. -/
def View.starting (v : View) : Bool := v.wells.toList.any fun w => decide (w = some .starting)

/-- The test for the end of LEAVING, at a snapshot published in LEAVING (R59). -/
def endLeaving (s : State) : State :=
  if s.mbc.mode = .leaving ∧ s.view.mode = .leaving ∧ !s.view.starting then changeMode .standby s else s

/-- MBC processes the snapshot of the view (R64). -/
def mbcProcess (s : State) : State :=
  if s.todo.mbc then endLeaving (deliverDirect (activate { s with todo := { s.todo with mbc := false } })) else s

/-- PENDING filled from STAGING with a new count; an earlier copy is superseded (R63). "If the publication is taken first, PENDING
fills after the test has been made for that snapshot" (R64): MBC first processes a snapshot it has not processed yet (log 34). -/
def fillPending (s : State) : State :=
  let s := mbcProcess s
  let count := s.mbc.pubCount + 1
  let s' := { s with mbc := { s.mbc with pubCount := count, pubBank := some ⟨s.mbc.staging, count⟩ } }
  match s.mbc.pubBank with
  | none => s'
  | some old => raise .bankSuperseded 0 old.count.toNat s'

/-- PUBLISH (R63). -/
def publishBank : Handler := fun p s =>
  match p with
  | [] =>
    if s.mbc.mode = .config then refuse .wrongMode s
    else if s.mbc.link = .silent then refuse .linkLocked s
    else
      let s' := fillPending s
      answer .ok (put16 s'.mbc.pubCount.toInt) s'
  | _ => refuse .badLength s

/-- Byte 1, bytes 2 and 3, and the contents of a named bank (R65). -/
def Mbc.named (m : Mbc) (n : Nat) : Option (Int × BitVec 16 × Bank) :=
  if n = 0 then some (4, 0, m.staging)
  else if n = 1 then
    match m.pubBank with
    | none => some (3, 0, .zero)
    | some p => some (1, p.count, p.bank)
  else if n = 2 then some (m.origin.code, m.origin.count, m.active)
  else if n = 3 then some (4, 0, m.failsafe)
  else none

/-- READ_BANK (R65). -/
def readBank : Handler := fun p s =>
  match p with
  | [n] =>
    match s.mbc.named n.toNat with
    | none => refuse .badIndex s
    | some (origin, count, bank) =>
      answer .ok ([n] ++ put8 origin ++ put16 count.toInt ++ put8 s.mbc.mode.code
        ++ put8 (flagByte [decide (s.mbc.link = .silent), s.mbc.pubBank.isSome, s.mbc.hostTimer.isSome]) ++ bank.bytes) s
  | _ => refuse .badLength s

/-! ## The host timer and the link state (R67 to R70) -/

/-- The parameter of SILENT (R68). -/
def Mbc.silentParam (m : Mbc) : Int := flagByte [m.pubBank.isSome, decide (m.link = .silent)]

/-- The host timer expires (R68). -/
def hostExpiry (s : State) : State :=
  match s.mbc.hostTimer with
  | none => s
  | some t =>
    let s := s.reachEnd t
    raise .bankSilent 0 s.mbc.silentParam
      { s with mbc := { s.mbc with link := .silent, pubBank := none, active := s.mbc.failsafe, origin := .failsafe,
                                   hostTimer := none } }

/-- RESUME (R70). -/
def resume : Handler := fun p s =>
  match p with
  | [] =>
    if s.mbc.link = .linked then answer .already [] s
    else answer .ok [] (raise .bankResumed 0 0 { s with mbc := { s.mbc with link := .linked } })
  | _ => refuse .badLength s

def execSetModeConfig (r : Request) (s : State) : Host.Outcome State Fault Refusal := live s (goodFrame 0x03 setMode r)
def execSetModeStandby (r : Request) (s : State) : Host.Outcome State Fault Refusal := live s (goodFrame 0x03 setMode r)
def execSetModeSupervise (r : Request) (s : State) : Host.Outcome State Fault Refusal := live s (goodFrame 0x03 setMode r)
def execStage (r : Request) (s : State) : Host.Outcome State Fault Refusal := live s (goodFrame 0x07 stage r)
def execPublish (r : Request) (s : State) : Host.Outcome State Fault Refusal := live s (goodFrame 0x08 publishBank r)
def execReadBank (r : Request) (s : State) : Host.Outcome State Fault Refusal := live s (goodFrame 0x09 readBank r)
def execResume (r : Request) (s : State) : Host.Outcome State Fault Refusal := live s (goodFrame 0x0A resume r)
def execMbcProcessSnapshot (s : State) : Host.Outcome State Fault Refusal := live s mbcProcess
def execHostTimerExpiry (s : State) : Host.Outcome State Fault Refusal := live s hostExpiry

end Sys2Proof.Machine
end

