-- ==== Sys2Proof/Machine/Snapshot.lean ====
section
/-! DEFINITION. ACQ, the channel table (chapter 2): conversion of a scan, publication of a snapshot with its view, and the
requests on channels. -/

namespace Sys2Proof.Machine

/-! ## Conversion of a channel (R25 to R30) -/

/-- The runtime part of a channel after R25: last raw and a pending trim taken up. -/
def Channel.takeUp (c : Channel) (slot : Option Word) : Channel :=
  { c with lastRaw := slot.getD c.lastRaw, trim := c.pendingTrim.getD c.trim, pendingTrim := none }

/-- The raw value as an integer (R27). -/
def ChannelRecord.raw (r : ChannelRecord) (w : Word) : Int := if r.signedRaw then w.toInt else w.toNat

/-- The sum of R27: the scaled value, the offset and the trim. -/
def Channel.sum (c : Channel) (w : Word) : Int := roundDiv (c.cfg.raw w * c.cfg.gain) 1024 + c.cfg.offset + c.trim

/-- A fresh value (R27). -/
def Channel.fresh (c : Channel) (w : Word) : Channel :=
  { c with value := clamp c.cfg.lo c.cfg.hi (c.sum w)
           quality := if within c.cfg.lo c.cfg.hi (c.sum w) then .good else .clamped
           age := 0 }

/-- No reading (R28). -/
def Channel.noReading (c : Channel) : Channel :=
  let age := min 255 (c.age + 1)
  { c with age := age, quality := if age < c.cfg.staleLimit then .held else .stale }

/-- The value, quality and age of a channel in use at a snapshot, by the three cases in order (R26 to R28). -/
def Channel.measure (c : Channel) (slot : Option Word) : Channel :=
  match c.force with
  | some v => { c with value := v, quality := .forced, age := 0 }
  | none =>
    match slot with
    | none => c.noReading
    | some w => if w = holdCode then c.noReading else c.fresh w

/-- FORCE_ON and FORCE_OFF (R26). At the first snapshot after an exit from CONFIG too: R30's "raises nothing" is read as speaking
of STALE and FRESH (log 35). -/
def forceReport (i : ChannelNo) (was isNow : Channel) : List Report :=
  match isNow.force with
  | some v => if was.quality = .forced then [] else [⟨.chanForceOn, i.val, v⟩]
  | none => if was.quality = .forced then [⟨.chanForceOff, i.val, 0⟩] else []

/-- The channel becomes STALE at this snapshot, or is STALE at the first snapshot after a reset (R29, R30). -/
def reportsStale (first : Bool) (was isNow : Channel) : Bool :=
  decide (isNow.quality = .stale) && (decide (was.quality ≠ .stale) || first)

/-- The channel takes a value with its stale report mark set (R29). -/
def reportsFresh (was isNow : Channel) : Bool :=
  was.staleMark && decide (isNow.quality = .good ∨ isNow.quality = .clamped ∨ isNow.quality = .forced)

/-- A channel in use converted, with its events in order (R25 to R30). -/
def Channel.convert (first : Bool) (slot : Option Word) (i : ChannelNo) (c : Channel) : Channel × List Report :=
  let d := (c.takeUp slot).measure slot
  let stale := reportsStale first c d
  let fresh := reportsFresh c d
  ({ d with staleMark := stale || (c.staleMark && !fresh) },
   forceReport i c d ++ (if stale then [⟨.chanStale, i.val, c.cfg.staleLimit⟩] else [])
     ++ (if fresh then [⟨.chanFresh, i.val, d.quality.code⟩] else []))

/-- One channel converted in a state (R23). -/
def convertChannel (scan : ScanBuffer) (s : State) (i : ChannelNo) : State :=
  let c := s.acq.chans[i]
  if !c.cfg.inUse then s
  else
    let d := c.convert s.acq.first scan[c.cfg.pos.index] i
    raiseAll d.2 { s with acq := { s.acq with chans := s.acq.chans.set i d.1 } }

/-! ## Publication (R23, R24, R37) -/

/-- A channel as the jobs see it. -/
def Channel.reading (c : Channel) : Reading := ⟨c.value, c.quality, c.age⟩

/-- The view of a snapshot: every record as it stands at the publication (R37, Table 2-6; log 26). -/
def State.snapshotView (s : State) (number : BitVec 16) (stamp : Time) (interval : Option (BitVec 32)) : View :=
  { number := number, stamp := stamp, interval := interval, chans := s.acq.chans.map Channel.reading, mode := s.mbc.mode,
    active := s.mbc.active, origin := s.mbc.origin, link := s.mbc.link, wells := s.wsv.wells.map Well.state,
    ceiling := s.wsv.ceiling, result := s.wsv.result, deficit := s.wsv.deficit, guard := s.tgd.guard, first := s.tgd.first,
    causes := s.tgd.causes, tripCount := s.tgd.tripCount, cap := s.tgd.cap, points := s.scm.points.map Point.res, cf := s.scm.cf,
    cfState := s.scm.cfState, heat := s.hxu.fig }

/-- The jobs that have not processed the last snapshot complete it before the next is published (R36, log 5). -/
def catchUp (s : State) : State := capProcess (scmProcess (hxuProcess (tgdProcess (wsvProcess (mbcProcess s)))))

/-- The interval of a snapshot whose stamp is now, and whether it is a free value (R24, log 6). -/
def Acq.measureInterval (a : Acq) (continuous : Bool) (now : Time) (free : Nat) : Option (BitVec 32) × Bool :=
  match continuous, a.prevStamp with
  | true, some prev =>
    if elapsed prev now < 2 ^ 32 then (some (BitVec.ofNat 32 (elapsed prev now)), false) else (some (Config.interval free), true)
  | _, _ => (none, false)

/-- Steps 1 to 3 of a handover: number, stamp, interval (R23, R24). -/
def countSnapshot (continuous : Bool) (s : State) : State :=
  let m := s.acq.measureInterval continuous s.now s.free
  { s with acq := { s.acq with number := s.acq.number + 1, prevStamp := some s.now, interval := m.1 }
           free := if m.2 then s.free + 1 else s.free }

/-- Step 5: the rise marks cleared (R44), the laboratory values taken up (R137), the view fixed (R37), every job with a snapshot
to process. -/
def fixView (s : State) : State :=
  let s := { s with out := s.out.clearRise, scm := s.scm.takeLabs, acq := { s.acq with first := false } }
  { s with view := s.snapshotView s.acq.number s.now s.acq.interval, todo := ⟨true, true, true, true, true, true⟩ }

/-- A scan handed over: one snapshot published (R14, R23). -/
def handover (scan : ScanBuffer) (continuous : Bool) (s : State) : State :=
  fixView ((List.finRange 96).foldl (convertChannel scan) (countSnapshot continuous (catchUp s)))

/-! ## Requests on channels (R32 to R35) -/

/-- A channel replaced. -/
def State.setChannel (s : State) (i : ChannelNo) (c : Channel) : State :=
  { s with acq := { s.acq with chans := s.acq.chans.set i c } }

/-- FORCE (R32). -/
def force : Handler := fun p s =>
  match p with
  | [i, _, _, _, _] =>
    match index? 96 (i.toNat : Int) with
    | none => refuse .badIndex s
    | some i =>
      let c := s.acq.chans[i]
      let v := s32 p 1
      if s.mbc.mode = .config then refuse .wrongMode s
      else if !c.cfg.inUse then refuse .wrongState s
      else if !within c.cfg.kind.low c.cfg.kind.high v then refuse .badValue s
      else answer .ok [] (s.setChannel i { c with force := some v })
  | _ => refuse .badLength s

/-- UNFORCE (R33). -/
def unforce : Handler := fun p s =>
  match p with
  | [i] =>
    match index? 96 (i.toNat : Int) with
    | none => refuse .badIndex s
    | some i =>
      let c := s.acq.chans[i]
      if s.mbc.mode = .config then refuse .wrongMode s
      else if c.force.isNone then answer .already [] s
      else answer .ok [] (s.setChannel i { c with force := none })
  | _ => refuse .badLength s

/-- TRIM (R34). -/
def trim : Handler := fun p s =>
  match p with
  | [i, _, _, _, _] =>
    match index? 96 (i.toNat : Int) with
    | none => refuse .badIndex s
    | some i =>
      let v := clamp (-32768) 32767 (s32 p 1)
      answer .ok (put16 v) (s.setChannel i { s.acq.chans[i] with pendingTrim := some v })
  | _ => refuse .badLength s

/-- One entry of READ_CHANNELS in a view (Table 2-4). -/
def Channel.entry (view : Byte) (c : Channel) : List Byte :=
  if view = 0 then
    put32 c.value ++ put8 (c.quality.code + 8 * flagByte [c.force.isSome, c.pendingTrim.isSome, c.cfg.inUse]) ++ put8 c.age
  else put16 c.lastRaw.toInt ++ put16 c.trim

/-- READ_CHANNELS (R35). -/
def readChannels : Handler := fun p s =>
  match p with
  | [first, count, view] =>
    match rangeCheck 96 32 first.toNat count.toNat with
    | some st => refuse st s
    | none =>
      if 1 < view.toNat then refuse .badValue s
      else
        answer .ok (put16 s.acq.number.toInt ++ [first, count]
          ++ ((s.acq.chans.toList.drop first.toNat).take count.toNat).flatMap (Channel.entry view)) s
  | _ => refuse .badLength s

def execForce (r : Request) (s : State) : Host.Outcome State Fault Refusal := live s (goodFrame 0x11 force r)
def execUnforce (r : Request) (s : State) : Host.Outcome State Fault Refusal := live s (goodFrame 0x12 unforce r)
def execTrim (r : Request) (s : State) : Host.Outcome State Fault Refusal := live s (goodFrame 0x13 trim r)
def execReadChannels (r : Request) (s : State) : Host.Outcome State Fault Refusal := live s (goodFrame 0x14 readChannels r)

end Sys2Proof.Machine
end

