-- ==== Sys2Proof/Machine/Loop.lean ====
section
/-! DEFINITION. LIF's events (chapter 1): the hunt for a frame boundary, the judgement of frames, the scan handover, BLIND, the
transmitter's starts, and READ_LOOP. -/

namespace Sys2Proof.Machine

/-! ## Hunting (R5 to R7) -/

/-- The receiver looks for a match from a bit position on (R5, R7). -/
def Lif.looking (l : Lif) (p : Nat) : Bool :=
  decide (l.rx = .hunt ∨ l.rx = .search) && l.candidate.isNone && !l.ended && decide (l.huntFrom ≤ p)

/-- A run of 16 bits compared with the inbound alignment word; a match makes a candidate (R5). In FRAMED and LOCKED the run is
watched for line transitions (R13; log 43). -/
def matchBits (p : Nat) (bits : Word) (s : State) : State :=
  if s.lif.looking p && decide (bits = inboundAlign) then { s with lif := { s.lif with candidate := some p } }
  else if s.lif.rx.watches then { s with lif := s.lif.watchRun bits s.now }
  else s

/-- FRAMED entered by a confirmed candidate with index i, after a frame that ended at a level (R5). The frame in progress has
brought its alignment word, whose last transition stands two bit times before its end (R13; log 43). -/
def Lif.enterFramed (l : Lif) (i : Fin 6) (level : Bool) (now : Time) : Lif :=
  { l.clearCounts with
    rx := .framed, selected := l.trial.getD l.selected, trial := none, hunt := none, dwell := none, ended := false,
    candidate := none, expected := some (nextIndex (nextIndex i))
    edge := now - BitVec.ofNat 48 (2 * bitUs (l.trial.getD l.selected))
    frameEnd := now - BitVec.ofNat 48 (16 * bitUs (l.trial.getD l.selected)), level := level }

/-- The candidate is confirmed; in SEARCH the code under trial becomes the selected rate and RATE_FOUND is raised (R5, R7). -/
def confirmCandidate (i : Fin 6) (level : Bool) (s : State) : State :=
  let s' := { s with lif := s.lif.enterFramed i level s.now }
  match s.lif.trial with
  | none => s'
  | some c => raise .loopRateFound 0 c.val s'

/-- SEARCH moves to the next code, or HUNT to SEARCH at code 3, when the interval or dwell has ended (R6, R7). -/
def Lif.moveOn (l : Lif) (now : Time) : Lif :=
  match l.trial with
  | none => l.searchAt 3 now
  | some c => l.searchAt (nextCode c) now

/-- The candidate at p fails (R5 to R7). -/
def failCandidate (p : Nat) (s : State) : State :=
  if s.lif.ended then { s with lif := s.lif.moveOn s.now }
  else { s with lif := { s.lif with candidate := none, huntFrom := p + 1 } }

/-- The candidate under test, in HUNT and SEARCH (R5). -/
def Lif.underTest (l : Lif) : Option Nat :=
  match l.rx with
  | .hunt => l.candidate
  | .search => l.candidate
  | _ => none

/-- The tests of the candidate under test, on the four words they read (R5). -/
def judgeCandidate (w : CandidateWords) (s : State) : State :=
  match s.lif.underTest with
  | none => s
  | some p =>
    match CandidateWords.index w with
    | some i => confirmCandidate i (w.service1.getLsbD 0) s
    | none => failCandidate p s

/-- An interval or dwell ends: the receiver moves on, or marks the end while a candidate is under test (R6, R7). -/
def Lif.endHunting (l : Lif) (now : Time) : Lif :=
  match l.candidate with
  | none => l.moveOn now
  | some _ => { l with ended := true, hunt := none, dwell := none }

/-- The hunt interval ends; with auto-rate off it has no effect (R6). -/
def huntExpiry (s : State) : State :=
  match s.lif.rx, s.lif.hunt with
  | .hunt, some t =>
    let s := s.reachEnd t
    { s with lif := if s.lif.cfg.autoRate then s.lif.endHunting s.now else { s.lif with hunt := none } }
  | _, _ => s

/-- The search dwell ends (R7). -/
def dwellExpiry (s : State) : State :=
  match s.lif.rx, s.lif.dwell with
  | .search, some t =>
    let s := s.reachEnd t
    { s with lif := s.lif.endHunting s.now }
  | _, _ => s

/-! ## Leaving FRAMED and LOCKED (R8, R9, R13) -/

/-- The receiver leaves FRAMED or LOCKED for HUNT, with the hunt interval and the blind timer from a time on (R8, R13). -/
def loseFrames (why : Int) (since : Time) (s : State) : State :=
  let s' := { s with lif := s.lif.enterHunt since }
  if s.lif.rx = .locked then leftLocked why { s' with lif := s'.lif.startBlind since } else s'

/-- The receiver leaves LOCKED for FRAMED on a frame out of sequence (R9). -/
def loseSequence (s : State) : State :=
  leftLocked 1 { s with lif := { s.lif.discardScan.startBlind s.now with rx := .framed, qualifying := 0, run := 0 } }

/-- No line transition for 2 frame times, measured on the time base from the last one; what follows is measured from their end
(R1, R13; log 43). -/
def lineSilence (s : State) : State :=
  if s.lif.rx.watches then loseFrames 3 s.lif.silence.endsAt (s.reachEnd s.lif.silence) else s

/-! ## Judging a frame (R8 to R12, R14) -/

/-- The scan handed over and every position marked "not taken" again (R14). -/
def handOver (s : State) : State :=
  let t := handover s.lif.buffer s.lif.continuous s
  { t with lif := { t.lif with buffer := Vector.replicate 168 none, continuous := true } }

/-- In LOCKED, the frame at which index 5 is expected hands the scan over (R14). -/
def afterFrame (expected : Option (Fin 6)) (s : State) : State :=
  if s.lif.rx = .locked ∧ expected = some 5 then handOver s else s

/-- A frame with a bad alignment word (R8). -/
def judgeBadAlign (s : State) : State :=
  let s' := countError .alignment s
  let l := s'.lif
  let s'' := { s' with lif := { l with badAlign := l.badAlign + 1, qualifying := 0, run := 0, expected := l.expected.map nextIndex } }
  if l.cfg.lossCount ≤ l.badAlign + 1 then loseFrames 2 s.now s'' else afterFrame s.lif.expected s''

/-- The index of a frame is in sequence: the expected one, or one adopted while none is known (R9). -/
def inSequence (expected : Option (Fin 6)) (index : Nat) : Option (Fin 6) :=
  match validIndex index, expected with
  | none, _ => none
  | some i, none => some i
  | some i, some e => if i = e then some i else none

/-- A frame out of sequence (R9). -/
def judgeOutOfSequence (index : Nat) (s : State) : State :=
  let s := countError .sequence s
  let s := { s with lif := { s.lif with expected := (validIndex index).map nextIndex } }
  if s.lif.rx = .locked then loseSequence s else { s with lif := { s.lif with qualifying := 0, run := 0 } }

/-- The two flags taken from a frame, with their events (R12). -/
def takeFlags (i : Fin 6) (station remote : Bool) (s : State) : State :=
  let l := s.lif
  let s := { s with lif := { l with stationFault := station, remoteAlarm := remote } }
  let s := raiseIf (station && !l.stationFault) .loopStationFault i.val 0 s
  raiseIf (!remote && l.remoteAlarm) .loopRemoteClear 0 0 (raiseIf (remote && !l.remoteAlarm) .loopRemoteAlarm 0 0 s)

/-- The slots of a taken frame placed at the frame's positions (R11). -/
def placeSlots (i : Fin 6) (slots : Vector Word 28) (b : ScanBuffer) : ScanBuffer :=
  b.mapIdx fun k old => if k / 28 = i.val then slots[k % 28]? else old

/-- The frames of the scan being qualified after a frame in sequence (R10). -/
def nextRun (i : Fin 6) (run : Nat) : Nat := if i = 0 then 1 else if run = i.val then run + 1 else 0

/-- A frame in sequence in FRAMED counts toward a qualifying scan; the second one locks the receiver (R10). -/
def qualify (i : Fin 6) (s : State) : State :=
  let run := nextRun i s.lif.run
  if run < 6 then { s with lif := { s.lif with run := run } }
  else
    let s := { s with lif := { s.lif with run := 0, qualifying := s.lif.qualifying + 1 } }
    if 2 ≤ s.lif.qualifying then enterLocked s else s

/-- A bad check byte is counted (R11). -/
def countCheck (good : Bool) (s : State) : State := if good then s else countError .check s

/-- The end of a frame in sequence: in LOCKED a taken frame's slots are placed and the last frame of a scan hands it over, in
FRAMED the frame counts toward a qualifying scan (R10, R11, R14). -/
def collect (expected : Option (Fin 6)) (taken : Bool) (i : Fin 6) (slots : Vector Word 28) (s : State) : State :=
  if s.lif.rx = .locked then
    afterFrame expected { s with lif := { s.lif with buffer := if taken then placeSlots i slots s.lif.buffer else s.lif.buffer } }
  else qualify i s

/-- A frame with a good alignment word and index i in sequence (R9 to R12, R14). -/
def judgeInSequence (i : Fin 6) (f : LoopFrame) (s : State) : State :=
  let good := decide (checkByte f.slots = serviceCheck f.service)
  collect s.lif.expected (good && !serviceStation f.service) i f.slots
    (takeFlags i (serviceStation f.service) (serviceRemote f.service)
      (countCheck good { s with lif := { s.lif with expected := some (nextIndex i) } }))

/-- A frame judged in FRAMED or LOCKED (R8): alignment word, index, check byte, station fault. -/
def judgeFramed (f : LoopFrame) (s : State) : State :=
  if f.align ≠ inboundAlign then judgeBadAlign s
  else
    let s := { s with lif := { s.lif with badAlign := 0 } }
    match inSequence s.lif.expected (serviceIndex f.service) with
    | none => judgeOutOfSequence (serviceIndex f.service) s
    | some i => judgeInSequence i f s

/-- A frame whose last bit has arrived (R8), with the line transitions it brings; where the line was silent for 2 frame times before
its first, the silence comes first and the frame is not judged (R13). Outside FRAMED and LOCKED none is judged. -/
def judgeFrame (f : LoopFrame) (s : State) : State :=
  if s.lif.rx.watches then
    if s.lif.fellSilent f s.now then loseFrames 3 s.lif.silence.endsAt s else judgeFramed f { s with lif := s.lif.watch f s.now }
  else s

/-! ## BLIND (R17, R46, R104) -/

/-- OUT takes BLIND: the fail-safe state in SUPERVISE and LEAVING, nothing in STANDBY (R46). -/
def outBlind (s : State) : State := if s.mbc.mode.drives then { s with out := s.out.enterFailSafe } else s

/-- The blind timer expires (R17): BLIND is set, OUT and TGD take it, and LIF raises BLIND. -/
def blindExpiry (s : State) : State :=
  match s.lif.blindTimer with
  | none => s
  | some t =>
    let s := s.reachEnd t
    let s := outBlind { s with lif := { s.lif with blindTimer := none, blind := true } }
    eitherOrder (raise .loopBlind 0 (t.duration / 1000 : Nat)) (takeCause .blind false) s

/-! ## The transmitter (R19, R20) -/

/-- An outbound scan start: the selected rate taken up, the 168 slots and bit 11 fixed (R19, R20). -/
def scanStart (s : State) : State :=
  match s.lif.tx.timer, s.lif.tx.next with
  | some t, none =>
    let s := s.reachEnd t
    { s with lif := { s.lif with
        tx := { s.lif.tx with
          rate := s.lif.selected, next := some 0, slots := Vector.ofFn (slotValue s.mbc.mode s.out)
          bit11 := s.mbc.mode.drives && s.lif.blind } } }
  | _, _ => s

/-- The frame index after k within a scan; after 5 a scan start is due (R19). -/
def followingFrame (k : Fin 6) : Option (Fin 6) := if k = 5 then none else some (nextIndex k)

/-- An outbound frame begins, with bit 12 sampled from the receive state (R19, R20). -/
def frameStart (s : State) : State :=
  match s.lif.tx.timer, s.lif.tx.next with
  | some t, some k =>
    let s := s.reachEnd t
    let line := s.lif.tx.frame k (decide (s.lif.rx ≠ .locked))
    { s with lif := { s.lif with
        tx := { s.lif.tx with
          timer := some ⟨t.endsAt, frameUs s.lif.tx.rate⟩, next := followingFrame k, line := some line } } }
  | _, _ => s

/-! ## READ_LOOP (R16) -/

/-- The nine bytes of READ_LOOP (R16). -/
def loopBytes (s : State) : List Byte :=
  let l := s.lif
  put8 l.rx.code ++ put8 (if s.mbc.mode = .config then l.cfg.rate.val else l.selected.val)
    ++ put8 (flagByte [l.remoteAlarm, l.stationFault, l.blind, l.blindTimer.isSome, l.cfg.autoRate]) ++ put16 l.alignErr.count
    ++ put16 l.checkErr.count ++ put16 l.seqErr.count

/-- The three counters set to 0 and their full marks cleared (R16). -/
def Lif.clearErrors (l : Lif) : Lif := { l with alignErr := ⟨0, false⟩, checkErr := ⟨0, false⟩, seqErr := ⟨0, false⟩ }

/-- READ_LOOP (R16). -/
def readLoop : Handler := fun p s =>
  match p with
  | [o] =>
    if o = 0 then answer .ok (loopBytes s) s
    else if o = 1 then answer .ok (loopBytes s) { s with lif := s.lif.clearErrors }
    else refuse .badValue s
  | _ => refuse .badLength s

def execReadLoop (r : Request) (s : State) : Host.Outcome State Fault Refusal := live s (goodFrame 0x1A readLoop r)
def execReadLoopClear (r : Request) (s : State) : Host.Outcome State Fault Refusal := live s (goodFrame 0x1A readLoop r)
def execCandidateMatch (p : Nat) (bits : Word) (s : State) : Host.Outcome State Fault Refusal := live s (matchBits p bits)
def execCandidateConfirm (w : CandidateWords) (s : State) : Host.Outcome State Fault Refusal := live s (judgeCandidate w)
def execCandidateFail (w : CandidateWords) (s : State) : Host.Outcome State Fault Refusal := live s (judgeCandidate w)
def execHuntIntervalExpiry (s : State) : Host.Outcome State Fault Refusal := live s huntExpiry
def execSearchDwellExpiry (s : State) : Host.Outcome State Fault Refusal := live s dwellExpiry
def execFrameJudge (f : LoopFrame) (s : State) : Host.Outcome State Fault Refusal := live s (judgeFrame f)
def execLineSilenceTimeout (s : State) : Host.Outcome State Fault Refusal := live s lineSilence
def execBlindTimerExpiry (s : State) : Host.Outcome State Fault Refusal := live s blindExpiry
def execOutboundScanStart (s : State) : Host.Outcome State Fault Refusal := live s scanStart
def execOutboundFrameStart (s : State) : Host.Outcome State Fault Refusal := live s frameStart

end Sys2Proof.Machine
end

