-- ==== Sys2Proof/Machine/Tables.lean ====
section
/-! DEFINITION. TABLE_WRITE and TABLE_READ (R175): the checks in order, and for each of the sixteen tables what a write stores
and what a read returns. -/

namespace Sys2Proof.Machine

/-- Tables written in CONFIG only: ids 0 to 9 (Table 11-5). -/
def configOnly (t : Nat) : Bool := decide (t ≤ 9)

/-- The record bytes of the tables of fixed record size (Table 11-5); CURVE, HEATCURVE and CAPTURE judge their own length. -/
def fixedLength (t : Nat) : Option Nat := [some 19, some 9, some 29, none, some 15, none, some 36, some 41, some 15, some 6, some 1,
  some 1, some 1, some 54, some 9, none].getD t none

/-- A table and an index within its range (Table 11-5). -/
inductive TableRef where
  | channel (i : ChannelNo)
  | output (i : OutputNo)
  | well (i : WellNo)
  | curve (i : CurveNo)
  | point (i : PointNo)
  | heatCurve
  | heating
  | turbine
  | plant
  | loop
  | permit (i : WellNo)
  | hold (i : WellNo)
  | cls (i : Fin 9)
  | failsafe
  | timing
  | capture
  deriving DecidableEq, Repr

/-- The table and index named by a request, when both are in range (check 2 of R175). -/
def TableRef.find (t i : Nat) : Option TableRef :=
  match t with
  | 0 => (index? 96 (i : Int)).map .channel
  | 1 => (index? 64 (i : Int)).map .output
  | 2 => (index? 16 (i : Int)).map .well
  | 3 => (index? 4 (i : Int)).map .curve
  | 4 => (index? 8 (i : Int)).map .point
  | 5 => if i = 0 then some .heatCurve else none
  | 6 => if i = 0 then some .heating else none
  | 7 => if i = 0 then some .turbine else none
  | 8 => if i = 0 then some .plant else none
  | 9 => if i = 0 then some .loop else none
  | 10 => (index? 16 (i : Int)).map .permit
  | 11 => (index? 16 (i : Int)).map .hold
  | 12 => (index? 9 (i : Int)).map .cls
  | 13 => if i = 0 then some .failsafe else none
  | 14 => if i = 0 then some .timing else none
  | 15 => if i = 0 then some .capture else none
  | _ => none

/-! ## What a write stores -/

/-- A status, and the state after the write. -/
abbrev Stored := Status × State

/-- A record read from its bytes and stored, or the whole write refused with BAD_VALUE. -/
def storeIf {α : Type} (r : Option α) (put : α → State) (s : State) : Stored :=
  match r with
  | none => (.badValue, s)
  | some a => (.ok, put a)

/-- WELL (R72, R75): in CONFIG the write gives the well the state of its role with an empty trip history. -/
def storeWell (i : WellNo) (r : WellRecord) (s : State) : State :=
  s.setWell i { s.well i with cfg := r, state := r.role.initState, history := [] }

/-- The length that a curve's own count byte gives (R120, R135). -/
def curveLength (b : List Byte) : Bool := decide (b ≠ [] ∧ b.length = 1 + 4 * (byteAt b 0).toNat)

/-- CURVE (R135). -/
def storeCurve (i : CurveNo) (b : List Byte) (s : State) : Stored :=
  if !curveLength b then (.badLength, s)
  else storeIf (readSolubilityCurve b) (fun c => { s with scm := { s.scm with curves := s.scm.curves.set i c } }) s

/-- HEATCURVE (R120). -/
def storeHeatCurve (b : List Byte) (s : State) : Stored :=
  if !curveLength b then (.badLength, s) else storeIf (readHeatCurve b) (fun c => { s with hxu := { s.hxu with curve := c } }) s

/-- CAPTURE (R163): length, state, values, in this order. -/
def storeCapture (b : List Byte) (s : State) : Stored :=
  if b.length < 4 ∨ b.length ≠ 4 + 2 * (byteAt b 0).toNat then (.badLength, s)
  else if s.cap.state ≠ .stopped then (.wrongState, s)
  else storeIf (CaptureRecord.read b) (fun r => { s with cap := { s.cap with cfg := r } }) s

/-- CLASS (R157, R160): the line is judged again at once. -/
def storeClass (i : Fin 9) (b : List Byte) (s : State) : Stored :=
  storeIf (ClassEntry.read s.evq.classes[i] b)
    (fun e => { s with evq := { s.evq with classes := s.evq.classes.set i e }.judge }) s

/-- TIMING (R67, R154): a changed resolution restarts the clock's period. -/
def storeTiming (r : TimingRecord) (s : State) : State :=
  { s with
    mbc := { s.mbc with timing := r }
    clk := if r.resolution = s.mbc.timing.resolution then s.clk else { s.clk with period := s.now } }

/-- HOLD (R80). -/
def readHold (b : List Byte) : Option Bool := readFlag b 0

/-- Check 5 of R175: the table's own rule. -/
def TableRef.store (t : TableRef) (b : List Byte) (s : State) : Stored :=
  match t with
  | .channel i => storeIf (ChannelRecord.read b) (fun r => s.setChannel i { s.acq.chans[i] with cfg := r }) s
  | .output i =>
    storeIf (OutputRecord.read b)
      (fun r => { s with out := { s.out with outs := s.out.outs.set i { s.out.outs[i] with cfg := r } } }) s
  | .well i => storeIf (WellRecord.read b) (fun r => storeWell i r s) s
  | .curve i => storeCurve i b s
  | .point i => storeIf (PointRecord.read b) (fun r => s.setPoint i { s.scm.points[i] with cfg := r }) s
  | .heatCurve => storeHeatCurve b s
  | .heating => storeIf (HeatingRecord.read b) (fun r => { s with hxu := { s.hxu with cfg := r } }) s
  | .turbine => storeIf (TurbineRecord.read b) (fun r => { s with tgd := { s.tgd with cfg := r } }) s
  | .plant => storeIf (PlantRecord.read b) (fun r => { s with wsv := { s.wsv with plant := r } }) s
  | .loop => storeIf (LoopRecord.read b) (fun r => { s with lif := { s.lif with cfg := r } }) s
  | .permit i => storeIf (Permit.read b) (fun r => s.setWell i { s.well i with permit := r }) s
  | .hold i => storeIf (readHold b) (fun r => s.setWell i { s.well i with hold := r }) s
  | .cls i => storeClass i b s
  | .failsafe => storeIf (readFailsafe b) (fun r => { s with mbc := { s.mbc with failsafe := r } }) s
  | .timing => storeIf (TimingRecord.read b) (fun r => storeTiming r s) s
  | .capture => storeCapture b s

/-- The record's length is not that of a table of fixed record size (check 4 of R175). -/
def wrongLength (t : Nat) (b : List Byte) : Bool :=
  match fixedLength t with
  | none => false
  | some n => decide (b.length ≠ n)

/-- The checks 2 to 5 of a write (R175). -/
def writeTable (t i : Nat) (b : List Byte) (s : State) : Stored :=
  match TableRef.find t i with
  | none => (.badIndex, s)
  | some ref =>
    if configOnly t ∧ s.mbc.mode ≠ .config then (.wrongMode, s)
    else if wrongLength t b then (.badLength, s)
    else ref.store b s

/-- TABLE_WRITE (R175). -/
def tableWrite : Handler := fun p s =>
  match p with
  | t :: i :: b =>
    let out := writeTable t.toNat i.toNat b s
    answer out.1 [] out.2
  | _ => refuse .badLength s

/-! ## What a read returns -/

/-- The record as stored, in the layout of its chapter (R175). -/
def TableRef.load (t : TableRef) (s : State) : List Byte :=
  match t with
  | .channel i => s.acq.chans[i].cfg.bytes
  | .output i => s.out.outs[i].cfg.bytes
  | .well i => (s.well i).cfg.bytes
  | .curve i => curveBytes s.scm.curves[i]
  | .point i => s.scm.points[i].cfg.bytes
  | .heatCurve => curveBytes s.hxu.curve
  | .heating => s.hxu.cfg.bytes
  | .turbine => s.tgd.cfg.bytes
  | .plant => s.wsv.plant.bytes
  | .loop => s.lif.cfg.bytes
  | .permit i => put8 (flagByte (s.well i).permit.flags)
  | .hold i => put8 (bit (s.well i).hold)
  | .cls i => put8 (flagByte [s.evq.classes[i].log, s.evq.classes[i].attend, s.evq.classes[i].summary])
  | .failsafe => s.mbc.failsafe.bytes
  | .timing => s.mbc.timing.bytes
  | .capture => s.cap.cfg.bytes

/-- TABLE_READ (R175). -/
def tableRead : Handler := fun p s =>
  match p with
  | [t, i] =>
    match TableRef.find t.toNat i.toNat with
    | none => refuse .badIndex s
    | some ref => answer .ok ([t, i] ++ ref.load s) s
  | _ => refuse .badLength s

def execTableWrite (r : Request) (s : State) : Host.Outcome State Fault Refusal := live s (goodFrame 0x05 tableWrite r)
def execTableWriteWell (r : Request) (s : State) : Host.Outcome State Fault Refusal := live s (goodFrame 0x05 tableWrite r)
def execTableWriteClass (r : Request) (s : State) : Host.Outcome State Fault Refusal := live s (goodFrame 0x05 tableWrite r)
def execTableWriteTiming (r : Request) (s : State) : Host.Outcome State Fault Refusal := live s (goodFrame 0x05 tableWrite r)
def execTableWriteCapture (r : Request) (s : State) : Host.Outcome State Fault Refusal := live s (goodFrame 0x05 tableWrite r)
def execTableRead (r : Request) (s : State) : Host.Outcome State Fault Refusal := live s (goodFrame 0x06 tableRead r)

end Sys2Proof.Machine
end

