-- ==== Sys2Proof/Machine/Port.lean ====
section
/-! DEFINITION. CPT, the command port (chapter 11): which handler a kind has, the ways a frame fails, IDENT, RESTART, the end of
a reply, and the reset pin. -/

namespace Sys2Proof.Machine

/-! ## IDENT and RESTART (R176, R177) -/

/-- The 18 bytes of IDENT (Table 11-7). -/
def identBytes (s : State) : List Byte :=
  put16 0x5742 ++ put16 0x3160 ++ put8 0x10 ++ put8 s.straps.toNat ++ put8 96 ++ put8 64 ++ put8 16 ++ put8 8 ++ put8 0x4C
    ++ put8 8 ++ put8 64 ++ put16 4096 ++ put8 16 ++ put8 0x1F ++ put8 0

/-- IDENT (R176). -/
def ident : Handler := fun p s =>
  match p with
  | [] => answer .ok (identBytes s) s
  | _ => refuse .badLength s

/-- RESTART is taken; it acts when its reply has been sent (R177). -/
def restart : Handler := fun p s =>
  match p with
  | [] => answer .ok [] s
  | _ => refuse .badLength s

/-- A kind not in Table 11-4 (R173). -/
def unknown : Handler := fun _ s => refuse .unknown s

/-- The owning block's handler of each kind of Table 11-4, from kind 0x01 on. -/
def handlers : List Handler :=
  [ident, status, setMode, restart, tableWrite, tableRead, stage, publishBank, readBank, resume, wellCmd, readWells, turbineCmd,
   readTurbine, outputCmd, readOutputs] ++
  [force, unforce, trim, readChannels, setLab, ackAlarm, readScale, readHeat, clearEnergy, readLoop, fetchEvents, captureCmd,
   readCapture, timeSet, timeSync]

/-- The handler of a kind (R173). -/
def handlerOf (kind : Byte) : Handler := if knownKind kind then handlers.getD (kind.toNat - 1) unknown else unknown

/-- A good frame of any kind (R171, R173). -/
def anyFrame (kind : Byte) (r : Request) (s : State) : State := goodFrame kind (handlerOf kind) r s

/-! ## The receiver, byte by byte (R171) -/

/-- The receiver in a state, and nothing else changed. -/
def receiver (rx : CptRx) (s : State) : State := { s with cpt := { s.cpt with rx := rx } }

/-- A completed frame: a CRC that does not match discards it silently (R171). -/
def completeFrame (kind : Byte) (r : Request) (crc : Word) (s : State) : State :=
  if crc = requestCrc kind r then anyFrame kind r s else receiver .hunt s

/-- The second CRC byte has been taken: the body is kind, tag and payload (R171, Table 11-2). A LEN of 3 or more leaves no shorter
body. -/
def completeBody (body : List Byte) (crc : Word) (s : State) : State :=
  match body with
  | kind :: tagHigh :: tagLow :: payload => completeFrame kind ⟨tagHigh ++ tagLow, payload⟩ crc s
  | _ => receiver .hunt s

/-- A body byte taken; the last of the LEN bytes moves the receiver to CHECK (R171). -/
def takeBody (len : Byte) (body : List Byte) (s : State) : State :=
  receiver (if body.length < len.toNat then .body s.now len body else .check s.now len body none) s

/-- A byte judged in the state the receiver is in; the time base stands at its end (R171). -/
def judgeByte (b : Byte) (s : State) : State :=
  match s.cpt.rx with
  | .hunt => if b = 0xC3#8 then receiver (.length s.now) s else s
  | .length _ => receiver (if goodLen b then .body s.now b [] else .hunt) s
  | .body _ len taken => takeBody len (taken ++ [b]) s
  | .check _ len body none => receiver (.check s.now len body (some b)) s
  | .check _ _ body (some high) => completeBody body (high ++ b) s

/-- A byte received without a framing error: when more than 2 ms have passed before its start, the frame in progress is abandoned,
and the byte is judged in HUNT (R171). -/
def takeByte (b : Byte) (s : State) : State := judgeByte b (if dueAt s.now s.gapTimer then receiver .hunt s else s)

/-- What the line gives is taken: a byte, or one with a framing error, which abandons a frame and in HUNT is ignored (R171). -/
def takePortByte : PortByte → State → State
  | .good b, s => takeByte b s
  | .framingError, s => receiver .hunt s

/-- The gap has passed: the frame in progress is abandoned (R171). In HUNT there is none (log 4). -/
def abandonFrame (s : State) : State :=
  match s.gapTimer with
  | none => s
  | some t => receiver .hunt (s.reachEnd t)

/-! ## The outbound line (R170, R173) -/

/-- The level of TXD while this reply goes out: 1 until it starts, then its bits at the strap rate, byte after byte with no gaps,
and 1 after them (R170, R173). -/
def Exchange.level (straps : BitVec 2) (now : Time) (e : Exchange) : Bool :=
  let us := elapsed e.sending.start now
  if us < e.delay then true
  else (e.reply.bytes.flatMap byteBits).getD ((us - e.delay) * portRate straps / 1000000) true

/-- The level of TXD: idle at 1 while no reply goes out (R170, R178). -/
def State.txd (s : State) : Bool :=
  match s.cpt.buffer with
  | none => true
  | some e => e.level s.straps s.now

/-! ## The end of a reply (R173, R177) -/

/-- The full buffer holds a RESTART that was taken. -/
def Exchange.restarts (e : Exchange) : Bool := decide (e.kind = 0x04#8 ∧ e.reply.status = .ok)

/-- The restart (R177). -/
def restartNow (s : State) : State := { runtimeReset s with cpt := { rx := .hunt, buffer := none, overrun := false } }

/-- The buffer becomes empty, or a RESTART acts (R173, R177). -/
def emptyBuffer (e : Exchange) (s : State) : State :=
  if e.restarts then restartNow s else { s with cpt := { s.cpt with buffer := none } }

/-- The last byte of the reply has been sent (R173); this takes place at the end of that byte (log 3). -/
def replyEnds (s : State) : State :=
  match s.cpt.buffer with
  | none => s
  | some e => emptyBuffer e (s.reachEnd e.sending)

/-- The last byte of a RESTART reply has been sent (R177). -/
def restartEnds (s : State) : State :=
  match s.cpt.buffer with
  | none => s
  | some e => if e.restarts then restartNow (s.reachEnd e.sending) else s

/-! ## The reset pin (R178) -/

/-- RST_N goes low: the lines are idle and the attention line is released; the reply going out is lost (log 23). -/
def holdReset (s : State) : State :=
  { s with held := true
           evq := { s.evq with attnLow := false }
           lif := { s.lif with tx := { s.lif.tx with timer := none, line := none } }
           cpt := { s.cpt with buffer := none } }

/-- RST_N goes high: every block at its power-on values; the model's own queue and count of free values stay (log 27). -/
def powerOn (straps : BitVec 2) (s : State) : State := { State.powerOn straps with pending := s.pending, free := s.free }

def execIdent (r : Request) (s : State) : Host.Outcome State Fault Refusal := live s (goodFrame 0x01 ident r)
def execRestart (r : Request) (s : State) : Host.Outcome State Fault Refusal := live s (goodFrame 0x04 restart r)
def execRestartEffect (s : State) : Host.Outcome State Fault Refusal := live s restartEnds
def execUnknownKind (kind : Byte) (r : Request) (s : State) : Host.Outcome State Fault Refusal := live s (anyFrame kind r)
def execFrameOverrunDiscard (kind : Byte) (r : Request) (s : State) : Host.Outcome State Fault Refusal := live s (anyFrame kind r)
def execCrcMismatchDiscard (kind : Byte) (r : Request) (crc : Word) (s : State) : Host.Outcome State Fault Refusal :=
  live s (completeFrame kind r crc)
/-- The row of the byte taken in LENGTH: the byte is judged by the receiver in the state it is in (R171; log 31). -/
def execBadLenDiscard (len : Byte) (s : State) : Host.Outcome State Fault Refusal := live s (takePortByte (.good len))
def execFramingErrorAbandon (s : State) : Host.Outcome State Fault Refusal := live s (takePortByte .framingError)
def execGapAbandon (s : State) : Host.Outcome State Fault Refusal := live s abandonFrame
def execReplySent (s : State) : Host.Outcome State Fault Refusal := live s replyEnds
def execResetPinLow (s : State) : Host.Outcome State Fault Refusal := .next (holdReset s)
def execPowerOnReset (straps : BitVec 2) (s : State) : Host.Outcome State Fault Refusal := .next (powerOn straps s)

end Sys2Proof.Machine
end

