-- ==== Sys2Proof/Machine/Dispatch.lean ====
section
/-! DEFINITION. The meaning of every command: one arm per constructor of Instr. -/

namespace Sys2Proof.Machine

def exec (i : Instr) (s : State) : Host.Outcome State Fault Refusal :=
  match i with
  | .ident r => Sys2Proof.Machine.execIdent r s
  | .status r => Sys2Proof.Machine.execStatus r s
  | .statusClear r => Sys2Proof.Machine.execStatusClear r s
  | .setModeConfig r => Sys2Proof.Machine.execSetModeConfig r s
  | .setModeStandby r => Sys2Proof.Machine.execSetModeStandby r s
  | .setModeSupervise r => Sys2Proof.Machine.execSetModeSupervise r s
  | .restart r => Sys2Proof.Machine.execRestart r s
  | .restartEffect => Sys2Proof.Machine.execRestartEffect s
  | .tableWrite r => Sys2Proof.Machine.execTableWrite r s
  | .tableWriteWell r => Sys2Proof.Machine.execTableWriteWell r s
  | .tableWriteClass r => Sys2Proof.Machine.execTableWriteClass r s
  | .tableWriteTiming r => Sys2Proof.Machine.execTableWriteTiming r s
  | .tableWriteCapture r => Sys2Proof.Machine.execTableWriteCapture r s
  | .tableRead r => Sys2Proof.Machine.execTableRead r s
  | .stage r => Sys2Proof.Machine.execStage r s
  | .publish r => Sys2Proof.Machine.execPublish r s
  | .readBank r => Sys2Proof.Machine.execReadBank r s
  | .resume r => Sys2Proof.Machine.execResume r s
  | .wellCmdStart r => Sys2Proof.Machine.execWellCmdStart r s
  | .wellCmdStop r => Sys2Proof.Machine.execWellCmdStop r s
  | .wellCmdClear r => Sys2Proof.Machine.execWellCmdClear r s
  | .wellCmdServiceOut r => Sys2Proof.Machine.execWellCmdServiceOut r s
  | .wellCmdServiceIn r => Sys2Proof.Machine.execWellCmdServiceIn r s
  | .wellCmdHold r => Sys2Proof.Machine.execWellCmdHold r s
  | .wellCmdRelease r => Sys2Proof.Machine.execWellCmdRelease r s
  | .readWells r => Sys2Proof.Machine.execReadWells r s
  | .turbineCmdTrip r => Sys2Proof.Machine.execTurbineCmdTrip r s
  | .turbineCmdReset r => Sys2Proof.Machine.execTurbineCmdReset r s
  | .turbineCmdRelease r => Sys2Proof.Machine.execTurbineCmdRelease r s
  | .readTurbine r => Sys2Proof.Machine.execReadTurbine r s
  | .outputCmdServiceOut r => Sys2Proof.Machine.execOutputCmdServiceOut r s
  | .outputCmdServiceIn r => Sys2Proof.Machine.execOutputCmdServiceIn r s
  | .readOutputs r => Sys2Proof.Machine.execReadOutputs r s
  | .force r => Sys2Proof.Machine.execForce r s
  | .unforce r => Sys2Proof.Machine.execUnforce r s
  | .trim r => Sys2Proof.Machine.execTrim r s
  | .readChannels r => Sys2Proof.Machine.execReadChannels r s
  | .setLab r => Sys2Proof.Machine.execSetLab r s
  | .ackAlarm r => Sys2Proof.Machine.execAckAlarm r s
  | .readScale r => Sys2Proof.Machine.execReadScale r s
  | .readHeat r => Sys2Proof.Machine.execReadHeat r s
  | .clearEnergy r => Sys2Proof.Machine.execClearEnergy r s
  | .readLoop r => Sys2Proof.Machine.execReadLoop r s
  | .readLoopClear r => Sys2Proof.Machine.execReadLoopClear r s
  | .fetchEvents r => Sys2Proof.Machine.execFetchEvents r s
  | .captureCmdStart r => Sys2Proof.Machine.execCaptureCmdStart r s
  | .captureCmdStop r => Sys2Proof.Machine.execCaptureCmdStop r s
  | .captureCmdRearm r => Sys2Proof.Machine.execCaptureCmdRearm r s
  | .readCapture r => Sys2Proof.Machine.execReadCapture r s
  | .timeSet r => Sys2Proof.Machine.execTimeSet r s
  | .timeSyncA r => Sys2Proof.Machine.execTimeSyncA r s
  | .timeSyncB r => Sys2Proof.Machine.execTimeSyncB r s
  | .unknownKind kind r => Sys2Proof.Machine.execUnknownKind kind r s
  | .frameOverrunDiscard kind r => Sys2Proof.Machine.execFrameOverrunDiscard kind r s
  | .crcMismatchDiscard kind r crc => Sys2Proof.Machine.execCrcMismatchDiscard kind r crc s
  | .badLenDiscard len => Sys2Proof.Machine.execBadLenDiscard len s
  | .framingErrorAbandon => Sys2Proof.Machine.execFramingErrorAbandon s
  | .gapAbandon => Sys2Proof.Machine.execGapAbandon s
  | .replySent => Sys2Proof.Machine.execReplySent s
  | .resetPinLow => Sys2Proof.Machine.execResetPinLow s
  | .powerOnReset straps => Sys2Proof.Machine.execPowerOnReset straps s
  | .candidateMatch position bits => Sys2Proof.Machine.execCandidateMatch position bits s
  | .candidateConfirm words => Sys2Proof.Machine.execCandidateConfirm words s
  | .candidateFail words => Sys2Proof.Machine.execCandidateFail words s
  | .huntIntervalExpiry => Sys2Proof.Machine.execHuntIntervalExpiry s
  | .searchDwellExpiry => Sys2Proof.Machine.execSearchDwellExpiry s
  | .frameJudge frame => Sys2Proof.Machine.execFrameJudge frame s
  | .lineSilenceTimeout => Sys2Proof.Machine.execLineSilenceTimeout s
  | .blindTimerExpiry => Sys2Proof.Machine.execBlindTimerExpiry s
  | .outboundScanStart => Sys2Proof.Machine.execOutboundScanStart s
  | .outboundFrameStart => Sys2Proof.Machine.execOutboundFrameStart s
  | .mbcProcessSnapshot => Sys2Proof.Machine.execMbcProcessSnapshot s
  | .hostTimerExpiry => Sys2Proof.Machine.execHostTimerExpiry s
  | .wsvProcessSnapshot => Sys2Proof.Machine.execWsvProcessSnapshot s
  | .startTimerExpiry well => Sys2Proof.Machine.execStartTimerExpiry well s
  | .staggerTimerExpiry => Sys2Proof.Machine.execStaggerTimerExpiry s
  | .tgdProcessSnapshot => Sys2Proof.Machine.execTgdProcessSnapshot s
  | .permissiveHoldExpiry step => Sys2Proof.Machine.execPermissiveHoldExpiry step s
  | .hxuProcessSnapshot => Sys2Proof.Machine.execHxuProcessSnapshot s
  | .scmProcessSnapshot => Sys2Proof.Machine.execScmProcessSnapshot s
  | .capProcessSnapshot => Sys2Proof.Machine.execCapProcessSnapshot s
  | .clockAdvance => Sys2Proof.Machine.execClockAdvance s

end Sys2Proof.Machine
end

