-- ==== Sys2Proof/Machine/Step.lean ====
section
/-! DEFINITION. One step of the part: the command at the front of the queue, or, on an empty queue, one microsecond of the time
base (log 2). What the two inbound lines carry is asserted by the rows (log 28); where they bring no line
transition, there is none (log 43). -/

namespace Sys2Proof.Machine

/-- A command, when a condition holds. -/
def Instr.onlyIf (c : Bool) (i : Instr) : List Instr := if c then [i] else []

/-- The jobs that have a snapshot to process (R36). -/
def Jobs.due (j : Jobs) : List Instr :=
  Instr.onlyIf j.mbc .mbcProcessSnapshot ++ Instr.onlyIf j.wsv .wsvProcessSnapshot ++ Instr.onlyIf j.tgd .tgdProcessSnapshot
    ++ Instr.onlyIf j.hxu .hxuProcessSnapshot ++ Instr.onlyIf j.scm .scmProcessSnapshot
    ++ Instr.onlyIf j.cap .capProcessSnapshot

/-- The wells whose start timers have run out (R90). -/
def Wsv.due (v : Wsv) (now : Time) : List Instr :=
  (List.finRange 16).flatMap fun i => Instr.onlyIf (dueAt now v.wells[i].startTimer) (.startTimerExpiry i)

/-- The hold timer of a step has run out (R109). -/
def StepState.due (now : Time) : StepState → Bool
  | .timing t => t.due now
  | .incomplete => false
  | .complete => false

/-- The steps whose hold timers have run out (R109). -/
def Chain.due (c : Chain) (now : Time) : List Instr :=
  [HoldStep.s2, .s3, .s4].flatMap fun st => Instr.onlyIf ((c.step st).due now) (.permissiveHoldExpiry st)

/-- The transmitter's next start (R19): a scan start, when one is due, comes before the frame it begins. -/
def Transmitter.due (t : Transmitter) (now : Time) : List Instr :=
  if dueAt now t.timer then Instr.onlyIf t.next.isNone .outboundScanStart ++ [.outboundFrameStart] else []

/-- Everything that takes place by itself at the time base as it stands: the jobs, the clock, the timers, the line silence, a gap within a
frame and the end of a reply (log 2). -/
def State.due (s : State) : List Instr :=
  s.todo.due ++ Instr.onlyIf (s.clockTimer.due s.now) .clockAdvance ++ Instr.onlyIf (dueAt s.now s.mbc.hostTimer) .hostTimerExpiry
    ++ Instr.onlyIf (dueAt s.now s.lif.blindTimer) .blindTimerExpiry ++ Instr.onlyIf (dueAt s.now s.lif.hunt) .huntIntervalExpiry
    ++ Instr.onlyIf (dueAt s.now s.lif.dwell) .searchDwellExpiry
    ++ Instr.onlyIf (s.lif.silent s.now) .lineSilenceTimeout ++ s.wsv.due s.now
    ++ Instr.onlyIf (dueAt s.now s.wsv.stagger) .staggerTimerExpiry ++ s.tgd.chain.due s.now ++ s.lif.tx.due s.now
    ++ Instr.onlyIf (dueAt s.now s.gapTimer) .gapAbandon ++ Instr.onlyIf (dueAt s.now s.replyTimer) .replySent

/-- One microsecond passes: the time base counts, and what is then due waits in the queue (log 2). While RST_N is low the part is
held (R178). -/
def tick (s : State) : State :=
  if s.held then s
  else
    let s := { s with now := s.now + 1 }
    { s with pending := s.due }

/-- One step: the command at the front of the queue acts on the state with the rest of the queue; on an empty queue the time base
runs on. -/
def step (s : State) : Host.Outcome State Fault Refusal :=
  match s.pending with
  | [] => .next (tick s)
  | c :: rest => exec c { s with pending := rest }

/-- The state with the command that a word spells at the front of its queue; no word spells one. -/
def State.withFetchWord (s : State) (nbits w : Nat) : State :=
  match decodeTableWord nbits w with
  | none => s
  | some c => { s with pending := c :: s.pending }

end Sys2Proof.Machine
end

