-- ==== Sys2Proof/Safety.lean ====
section
/-! DEFINITION. The words in which statements about the part are made: a part that can take a request, a reply, and the
invariants that every step keeps. -/

namespace Sys2Proof.Machine

/-- RST_N is high and the frame buffer is empty: a good frame's request is taken (R173, R178). -/
abbrev State.ready (s : State) : Prop := s.held = false ∧ s.cpt.buffer = none

/-- A state with the reply to a request going out (R173). -/
def replied (kind : Byte) (r : Request) (st : Status) (payload : List Byte) (s : State) : State :=
  fillBuffer kind r (answer st payload s)

/-- The receiver at the start of a hunt, with the scan discarded (R6, R8, R13); the expected index stays (log 29). -/
abbrev Lif.hunting (l : Lif) (now : Time) : Lif :=
  { l with rx := .hunt, trial := none, hunt := some ⟨now, 32 * (7680 / 2 ^ l.selected.val)⟩, dwell := none, ended := false,
           candidate := none, huntFrom := 0, qualifying := 0, run := 0, badAlign := 0, buffer := Vector.replicate 168 none,
           continuous := false }

/-- The blind timer as it starts: the blind time of the record, or the minimum of the selected rate (R1, R17). -/
abbrev Lif.blindFrom (l : Lif) (now : Time) : Timer :=
  ⟨now, max l.cfg.blindMs ((120 * (7680 / 2 ^ l.selected.val) + 999) / 1000) * 1000⟩

/-- A cause taken when a condition holds (R102, R104). -/
def takeCauseIf (p : Prop) [Decidable p] (c : Cause) (stale : Bool) (s : State) : State := if p then takeCause c stale s else s

/-- The event queue never holds more than 64 entries, and ATTN_N is low exactly while R160 says so; in reset it is released
(R158, R160, R178). -/
abbrev QueueInv (s : State) : Prop :=
  s.evq.queue.length ≤ 64 ∧ s.evq.attnLow = (!s.held && attention s.evq.queue s.evq.classes)

/-- Every offset listed lies in the ring. -/
def Memory.inRing (m : Memory) : Bool := m.all fun c => decide (c.1 < 4096)

/-- The ring is in its canonical form, within its 4096 words, and the write position stands in it (R163, R164). -/
abbrev RingInv (s : State) : Prop := s.cap.ring.wf = true ∧ s.cap.ring.inRing = true ∧ s.cap.pos < 4096

/-- The residue lies below one kilowatt-hour, and the counter within 32 bits (R130, R131). -/
abbrev EnergyInv (s : State) : Prop := 0 ≤ s.hxu.residue ∧ s.hxu.residue < mjPerKwh ∧ s.hxu.energy ≤ energyMax

/-- The COMPLETE steps form an unbroken run from S1, a step is TIMING only behind COMPLETE ones, and S1 and S5 have no hold
(R109). -/
structure ChainInv (s : State) : Prop where
  first : s.tgd.chain.s1 = .incomplete ∨ s.tgd.chain.s1 = .complete
  second : s.tgd.chain.s2 ≠ .incomplete → s.tgd.chain.s1 = .complete
  third : s.tgd.chain.s3 ≠ .incomplete → s.tgd.chain.s2 = .complete
  fourth : s.tgd.chain.s4 ≠ .incomplete → s.tgd.chain.s3 = .complete
  fifth : s.tgd.chain.s5 = .incomplete ∨ (s.tgd.chain.s5 = .complete ∧ s.tgd.chain.s4 = .complete)

/-- The start queue holds exactly the wells in START_PENDING, each once, and the slot exactly the well in STARTING; in CONFIG the
queue is empty and the slot free (R85). -/
structure StartInv (s : State) : Prop where
  once : s.wsv.queue.Nodup
  queued : ∀ i : WellNo, i ∈ s.wsv.queue ↔ s.wsv.wells[i].state = some .startPending
  slot : ∀ i : WellNo, s.wsv.slot = some i ↔ s.wsv.wells[i].state = some .starting
  config : s.mbc.mode = .config → s.wsv.queue = [] ∧ s.wsv.slot = none

/-- A trip cap, when it is in force, lies between the ceiling minimum and 1000 (R107). -/
def capInRange (plant : PlantRecord) : Option Cap → Prop
  | none => True
  | some c => plant.ceilingMin ≤ c.value ∧ c.value ≤ 1000

/-- The production ceiling lies between the ceiling minimum and 1000, with what that rests on: the PLANT and TURBINE records in
their ranges, the trip cap and its copy in the view in theirs, and a CONFIG in which LIF is OFF, no snapshot waits for WSV, the
guard is TRIPPED with no cap, and P is 1000 (R60, R73, R96, R99, R107). -/
structure CeilingInv (s : State) : Prop where
  plant : 0 ≤ s.wsv.plant.ceilingMin ∧ s.wsv.plant.ceilingMin ≤ 1000 ∧ 0 ≤ s.wsv.plant.runback ∧ 0 ≤ s.wsv.plant.recover
  capacity : 0 ≤ s.tgd.cfg.bypassCapacity
  cap : capInRange s.wsv.plant s.tgd.cap
  viewCap : capInRange s.wsv.plant s.view.cap
  ceiling : s.wsv.plant.ceilingMin ≤ s.wsv.ceiling ∧ s.wsv.ceiling ≤ 1000
  config : s.mbc.mode = .config →
    s.lif.rx = .off ∧ s.todo.wsv = false ∧ s.tgd.guard = .tripped ∧ s.tgd.cap = none ∧ s.view.cap = none ∧ s.wsv.ceiling = 1000

/-- An output in use that carries the stop valve. -/
def Output.isStopValve (o : Output) : Prop := o.cfg.inUse = true ∧ o.cfg.source = .stopValve

/-- While the guard is TRIPPED the stop valve's issued value is 0 (R105), with what that rests on: its fail-safe value is 0, its
issued value is 0 in the fail-safe state, neither value is negative, its demand is 0 while TRIPPED, and in CONFIG the guard is TRIPPED
and every output is at 0 (R40, R46, R52, R118). -/
structure StopValveInv (s : State) : Prop where
  failSafe : ∀ o ∈ s.out.outs.toList, o.isStopValve → o.cfg.failSafe = 0
  nonneg : ∀ o ∈ s.out.outs.toList, o.isStopValve → 0 ≤ o.demand ∧ 0 ≤ o.issued
  blind : s.out.failSafe = true → ∀ o ∈ s.out.outs.toList, o.isStopValve → o.issued = 0
  demand : s.tgd.guard = .tripped → ∀ o ∈ s.out.outs.toList, o.isStopValve → o.demand = 0
  issued : s.tgd.guard = .tripped → ∀ o ∈ s.out.outs.toList, o.isStopValve → o.issued = 0
  config : s.mbc.mode = .config → s.tgd.guard = .tripped ∧ ∀ o ∈ s.out.outs.toList, o.demand = 0 ∧ o.issued = 0

end Sys2Proof.Machine
end

