-- ==== Sys2Proof/WellFormed.lean ====
section
/-! DEFINITION. Which commands can reach the part. A request row names a kind and, where several rows share the kind, the
selector byte that its payload carries; a payload whose selector names no row may stand in any row of the kind (log 1). -/

namespace Sys2Proof

open Machine

/-- A payload fits a frame: LEN is at most 250 and counts kind and tag (Table 11-2). -/
def Request.fits (r : Request) : Bool := decide (r.payload.length ≤ 247)

/-- A one-byte payload that is none of the selector values of the other rows of the kind. -/
def Request.notOption (r : Request) (others : List Byte) : Bool := others.all fun o => decide (r.payload ≠ [o])

/-- A two-byte payload whose second byte is none of the commands of the other rows of the kind. -/
def Request.notCommand (r : Request) (others : List Byte) : Bool :=
  match r.payload with
  | [_, c] => !others.contains c
  | _ => true

/-- The other commands of WELL_CMD (R78). -/
def otherWellCommands (c : Byte) : List Byte := [0, 1, 2, 3, 4, 5, 6].filter fun x => decide (x ≠ c)

/-- The other options of a one-byte request with commands 0, 1 and 2. -/
def otherOptions (c : Byte) : List Byte := [0, 1, 2].filter fun x => decide (x ≠ c)

/-- The table id of a TABLE_WRITE payload (R175). -/
def Request.tableId (r : Request) : Option Byte := r.payload.head?

/-- The tables whose writes have rows of their own: WELL, CLASS, TIMING, CAPTURE (Table 11-5). -/
def tablesWithRows : List Byte := [2, 12, 14, 15]

/-- The source byte of a TIME_SYNC payload of the right length (R156). -/
def Request.syncSource (r : Request) : Option Byte := if r.payload.length = 5 then r.payload.head? else none

/-- A command is well formed when its data could be what its row says. -/
def Instr.wellFormed : Instr → Bool
  | .ident r => r.fits
  | .status r => r.fits && r.notOption [1]
  | .statusClear r => r.fits && r.notOption [0]
  | .setModeConfig r => r.fits && r.notOption (otherOptions 0)
  | .setModeStandby r => r.fits && r.notOption (otherOptions 1)
  | .setModeSupervise r => r.fits && r.notOption (otherOptions 2)
  | .restart r => r.fits
  | .restartEffect => true
  | .tableWrite r => r.fits && !tablesWithRows.any fun t => decide (r.tableId = some t)
  | .tableWriteWell r => r.fits && decide (r.tableId = some 2)
  | .tableWriteClass r => r.fits && decide (r.tableId = some 12)
  | .tableWriteTiming r => r.fits && decide (r.tableId = some 14)
  | .tableWriteCapture r => r.fits && decide (r.tableId = some 15)
  | .tableRead r => r.fits
  | .stage r => r.fits
  | .publish r => r.fits
  | .readBank r => r.fits
  | .resume r => r.fits
  | .wellCmdStart r => r.fits && r.notCommand (otherWellCommands 0)
  | .wellCmdStop r => r.fits && r.notCommand (otherWellCommands 1)
  | .wellCmdClear r => r.fits && r.notCommand (otherWellCommands 2)
  | .wellCmdServiceOut r => r.fits && r.notCommand (otherWellCommands 3)
  | .wellCmdServiceIn r => r.fits && r.notCommand (otherWellCommands 4)
  | .wellCmdHold r => r.fits && r.notCommand (otherWellCommands 5)
  | .wellCmdRelease r => r.fits && r.notCommand (otherWellCommands 6)
  | .readWells r => r.fits
  | .turbineCmdTrip r => r.fits && r.notOption (otherOptions 0)
  | .turbineCmdReset r => r.fits && r.notOption (otherOptions 1)
  | .turbineCmdRelease r => r.fits && r.notOption (otherOptions 2)
  | .readTurbine r => r.fits
  | .outputCmdServiceOut r => r.fits && r.notCommand [1]
  | .outputCmdServiceIn r => r.fits && r.notCommand [0]
  | .readOutputs r => r.fits
  | .force r => r.fits
  | .unforce r => r.fits
  | .trim r => r.fits
  | .readChannels r => r.fits
  | .setLab r => r.fits
  | .ackAlarm r => r.fits
  | .readScale r => r.fits
  | .readHeat r => r.fits
  | .clearEnergy r => r.fits
  | .readLoop r => r.fits && r.notOption [1]
  | .readLoopClear r => r.fits && r.notOption [0]
  | .fetchEvents r => r.fits
  | .captureCmdStart r => r.fits && r.notOption (otherOptions 0)
  | .captureCmdStop r => r.fits && r.notOption (otherOptions 1)
  | .captureCmdRearm r => r.fits && r.notOption (otherOptions 2)
  | .readCapture r => r.fits
  | .timeSet r => r.fits
  | .timeSyncA r => r.fits && !decide (r.syncSource = some 1)
  | .timeSyncB r => r.fits && !decide (r.syncSource = some 0)
  | .unknownKind kind r => r.fits && !knownKind kind
  | .frameOverrunDiscard _ r => r.fits
  | .crcMismatchDiscard kind r crc => r.fits && !decide (crc = requestCrc kind r)
  | .badLenDiscard _ => true
  | .framingErrorAbandon => true
  | .gapAbandon => true
  | .replySent => true
  | .resetPinLow => true
  | .powerOnReset _ => true
  | .candidateMatch _ _ => true
  | .candidateConfirm words => (CandidateWords.index words).isSome
  | .candidateFail words => (CandidateWords.index words).isNone
  | .huntIntervalExpiry => true
  | .searchDwellExpiry => true
  | .frameJudge _ => true
  | .lineSilenceTimeout => true
  | .blindTimerExpiry => true
  | .outboundScanStart => true
  | .outboundFrameStart => true
  | .mbcProcessSnapshot => true
  | .hostTimerExpiry => true
  | .wsvProcessSnapshot => true
  | .startTimerExpiry _ => true
  | .staggerTimerExpiry => true
  | .tgdProcessSnapshot => true
  | .permissiveHoldExpiry _ => true
  | .hxuProcessSnapshot => true
  | .scmProcessSnapshot => true
  | .capProcessSnapshot => true
  | .clockAdvance => true

/-- The kind and the request of a row that is a good frame (Table 11-4); the rows of frame fates carry their own kind. -/
def Instr.frame : Instr → Option (Byte × Request)
  | .ident r => some (0x01#8, r)
  | .status r => some (0x02#8, r)
  | .statusClear r => some (0x02#8, r)
  | .setModeConfig r => some (0x03#8, r)
  | .setModeStandby r => some (0x03#8, r)
  | .setModeSupervise r => some (0x03#8, r)
  | .restart r => some (0x04#8, r)
  | .tableWrite r => some (0x05#8, r)
  | .tableWriteWell r => some (0x05#8, r)
  | .tableWriteClass r => some (0x05#8, r)
  | .tableWriteTiming r => some (0x05#8, r)
  | .tableWriteCapture r => some (0x05#8, r)
  | .tableRead r => some (0x06#8, r)
  | .stage r => some (0x07#8, r)
  | .publish r => some (0x08#8, r)
  | .readBank r => some (0x09#8, r)
  | .resume r => some (0x0A#8, r)
  | .wellCmdStart r => some (0x0B#8, r)
  | .wellCmdStop r => some (0x0B#8, r)
  | .wellCmdClear r => some (0x0B#8, r)
  | .wellCmdServiceOut r => some (0x0B#8, r)
  | .wellCmdServiceIn r => some (0x0B#8, r)
  | .wellCmdHold r => some (0x0B#8, r)
  | .wellCmdRelease r => some (0x0B#8, r)
  | .readWells r => some (0x0C#8, r)
  | .turbineCmdTrip r => some (0x0D#8, r)
  | .turbineCmdReset r => some (0x0D#8, r)
  | .turbineCmdRelease r => some (0x0D#8, r)
  | .readTurbine r => some (0x0E#8, r)
  | .outputCmdServiceOut r => some (0x0F#8, r)
  | .outputCmdServiceIn r => some (0x0F#8, r)
  | .readOutputs r => some (0x10#8, r)
  | .force r => some (0x11#8, r)
  | .unforce r => some (0x12#8, r)
  | .trim r => some (0x13#8, r)
  | .readChannels r => some (0x14#8, r)
  | .setLab r => some (0x15#8, r)
  | .ackAlarm r => some (0x16#8, r)
  | .readScale r => some (0x17#8, r)
  | .readHeat r => some (0x18#8, r)
  | .clearEnergy r => some (0x19#8, r)
  | .readLoop r => some (0x1A#8, r)
  | .readLoopClear r => some (0x1A#8, r)
  | .fetchEvents r => some (0x1B#8, r)
  | .captureCmdStart r => some (0x1C#8, r)
  | .captureCmdStop r => some (0x1C#8, r)
  | .captureCmdRearm r => some (0x1C#8, r)
  | .readCapture r => some (0x1D#8, r)
  | .timeSet r => some (0x1E#8, r)
  | .timeSyncA r => some (0x1F#8, r)
  | .timeSyncB r => some (0x1F#8, r)
  | .unknownKind k r => some (k, r)
  | .frameOverrunDiscard k r => some (k, r)
  | _ => none

end Sys2Proof
end

