-- ==== Sys2Proof/Certificates/Slice0/Obligations.lean ====
section
/-! DEFINITION. The statements about the part, for the provers. Where a statement writes the whole next state, that equality is
also its frame: every field it does not write is as before. `s.hears` is the state in which a good frame's request is taken, and
`replied kind r status payload t` the state t with that reply going out; `FrameHeard` and `ReplyFormed` say what both are. -/

section

open Sys2Proof Sys2Proof.Machine

/-! ## The step and the queue -/

/-- A step runs the command at the front of the queue on the state with the queue's rest. -/
def Obligations.StepRunsFront : Prop :=
  ∀ (c : Instr) (rest : List Instr) (s : State), s.pending = c :: rest → step s = exec c { s with pending := rest }

/-- On an empty queue one microsecond passes and what is due joins the queue, in this order (log 2): the jobs that have the last
snapshot to process, the plant clock, the timers of host, blind, hunt and dwell, the line silence, the start timers by well, the stagger timer, the
holds of S2 to S4, the outbound starts, a scan start before the frame it begins, a gap within a frame in progress (R171) and the
end of the reply going out (R173); in reset nothing happens (R178). A command that stands for a timer's expiry leaves the time
base at the timer's end when it comes before it (log 3). That the gap ends 2 ms, ten bit times and 1 microsecond after the last
byte is the model's reading of R171 (log 41), with the ten bits of a byte (log 40); from when the line silence runs, and that it
waits for a frame in progress that may still show a transition, is log 43. -/
def Obligations.TimeBaseRuns : Prop :=
  (∀ s : State, s.pending = [] →
    (s.held = true → step s = .next s) ∧
    (s.held = false →
      let now := s.now + 1
      let unitMs := match s.mbc.timing.resolution with
        | .ms1 => 1
        | .ms10 => 10
        | .ms100 => 100
      let add : Bool → Instr → List Instr := fun c i => if c then [i] else []
      let ends : Option Timer → Bool := fun x => match x with
        | none => false
        | some t => decide (t.duration ≤ elapsed t.start now)
      let holds : StepState → Bool := fun x => match x with
        | .timing t => decide (t.duration ≤ elapsed t.start now)
        | _ => false
      let due : List Instr :=
        add s.todo.mbc .mbcProcessSnapshot ++ add s.todo.wsv .wsvProcessSnapshot ++ add s.todo.tgd .tgdProcessSnapshot
          ++ add s.todo.hxu .hxuProcessSnapshot ++ add s.todo.scm .scmProcessSnapshot ++ add s.todo.cap .capProcessSnapshot
          ++ add (decide (unitMs * 1000 ≤ elapsed s.clk.period now)) .clockAdvance
          ++ add (ends s.mbc.hostTimer) .hostTimerExpiry ++ add (ends s.lif.blindTimer) .blindTimerExpiry
          ++ add (ends s.lif.hunt) .huntIntervalExpiry ++ add (ends s.lif.dwell) .searchDwellExpiry
          ++ add (decide ((s.lif.rx = .framed ∨ s.lif.rx = .locked) ∧ 2 * (7680 / 2 ^ s.lif.selected.val) ≤ elapsed s.lif.edge now ∧
              7680 / 2 ^ s.lif.selected.val < elapsed s.lif.frameEnd now))
            .lineSilenceTimeout
          ++ (List.finRange 16).flatMap (fun i => add (ends s.wsv.wells[i].startTimer) (.startTimerExpiry i))
          ++ add (ends s.wsv.stagger) .staggerTimerExpiry
          ++ add (holds s.tgd.chain.s2) (.permissiveHoldExpiry .s2) ++ add (holds s.tgd.chain.s3) (.permissiveHoldExpiry .s3)
          ++ add (holds s.tgd.chain.s4) (.permissiveHoldExpiry .s4)
          ++ add (ends s.lif.tx.timer && decide (s.lif.tx.next = none)) .outboundScanStart
          ++ add (ends s.lif.tx.timer) .outboundFrameStart
          ++ add (ends s.gapTimer) .gapAbandon ++ add (ends s.replyTimer) .replySent
      step s = .next { s with now := now, pending := due })) ∧
  (∀ (s : State) (t : Timer),
    (t.duration ≤ elapsed t.start s.now → s.reachEnd t = s) ∧
    (elapsed t.start s.now < t.duration → s.reachEnd t = { s with now := t.start + BitVec.ofNat 48 t.duration })) ∧
  (∀ s : State,
    let rate := [57600, 115200, 230400, 460800].getD s.straps.toNat 0
    s.gapTimer = (match s.cpt.rx with
      | .hunt => none
      | .length last | .body last _ _ | .check last _ _ _ => some ⟨last, 2000 + 10000000 / rate + 1⟩) ∧
    s.replyTimer = s.cpt.buffer.map fun e => e.sending)

/-- Every command answers a next state, in every state, and leaves the queue as it is. That a row that cannot occur in a state
has no effect there is log 4; that POWER_ON_RESET leaves the queue too is log 27. -/
def Obligations.EveryCommandCompletes : Prop :=
  ∀ (c : Instr) (s : State), ∃ t, exec c s = .next t ∧ t.pending = s.pending

/-- RST_N low idles the lines and releases ATTN_N, and no command but the two of the pin changes the part; RST_N high brings
every block to its power-on values, with the strap code sampled (R178): the runtime state of every block, and the record of each of
the sixteen tables, field by field (the defaults of R3 and of Tables 2-1, 3-1, 5-1, 5-2, 6-1, 7-1, 8-2 and 9-1; curves without
points; every permit set, no hold, every class enabled without summary; FAILSAFE zero; PCEIL alone captured). The model's choices:
the reply going out is lost (log 23), its own queue and count stay (log 27), and the reset values that no table gives (log 30). -/
def Obligations.ResetPin : Prop :=
  ∀ s : State,
    exec .resetPinLow s = .next
      { s with held := true
               evq := { s.evq with attnLow := false }
               lif := { s.lif with tx := { s.lif.tx with timer := none, line := none } }
               cpt := { s.cpt with buffer := none } } ∧
    (s.held = true → ∀ c : Instr, c ≠ .resetPinLow → (∀ b, c ≠ .powerOnReset b) → exec c s = .next s) ∧
    (∀ b, ∃ t, exec (.powerOnReset b) s = .next t ∧
      t = { State.reset with straps := b, pending := s.pending, free := s.free } ∧
      t.held = false ∧ t.now = 0 ∧ t.mbc.mode = .config ∧ t.lif.rx = .off ∧ t.lif.tx.timer = none ∧ t.evq.queue = [] ∧
      t.evq.attnLow = false ∧ t.clk.count = 0 ∧ t.hxu.energy = 0 ∧ t.cap.state = .stopped ∧ t.cap.ring = [] ∧
      t.cpt = ⟨.hunt, none, false⟩ ∧ t.tgd.guard = .tripped ∧ t.tgd.causes = [.restarted] ∧
      (∀ i : ChannelNo, t.acq.chans[i].cfg =
        { inUse := false, pos := ⟨0, 0⟩, kind := .level, signedRaw := false, gain := 1024, offset := 0, lo := 0, hi := 1000,
          staleLimit := 10 }) ∧
      (∀ i : OutputNo, t.out.outs[i].cfg =
        { inUse := false, pos := ⟨0, 0⟩, source := .direct 0, ramp := 1000, failSafe := 0 }) ∧
      (∀ i : WellNo, t.wsv.wells[i].cfg =
        { role := .unused, flow := 0, intake := 0, motor := none, startSpeed := 300, minFlow := 50, startMs := 60000,
          intakeLimit := 0, intakePersistence := 5, tripLimit := 3, windowMin := 60, rated := 0, point := none, derate := 1000 }) ∧
      (∀ i : WellNo, t.wsv.wells[i].permit = { start := true, clear := true, serviceOut := true, serviceIn := true } ∧
        t.wsv.wells[i].hold = false) ∧
      (∀ i : CurveNo, t.scm.curves[i] = []) ∧
      (∀ i : PointNo, t.scm.points[i].cfg =
        { inUse := false, temp := 0, lab := false, silica := some 0, unity := false, curve := 0, warn := 1000, alarm := 1100,
          limit := 1000, hysteresis := 50, alarmPersistence := 5, clearPersistence := 20, holdLimit := 50 }) ∧
      t.hxu.curve = [] ∧
      t.hxu.cfg =
        { enable := false, outdoor := 0, districtReturn := 0, districtSupply := 0, districtFlow := 0, brineInlet := 0,
          brineOutlet := 0, brineFlow := 0, cpD := 4190, cpB := 4200, qRated := 10000, setMin := 400, setMax := 1200,
          absFloor := 700, fallFloor := 1700, floorPoint := none, floorHold := 50, guardBand := 20, guardStep := 20,
          guardPersistence := 5, deficitKw := 1000, deficitPersistence := 50 } ∧
      t.tgd.cfg =
        { speed := 0, tripSpeed := 3300, lube := 0, lubeTrip := 150, lubePersistence := 3, lubeRun := 200, lubeHoldS := 30,
          gear := 0, warmS := 600, turningSpeed := 200, purity := 0, purityTrip := 500, purityPersistence := 5,
          purityStart := 100, purityHoldS := 60, field := none, bypassCapacity := 0, bypassPosition := 1000 } ∧
      t.wsv.plant =
        { ceilingMin := 200, runback := 20, recover := 5, margin := 50, check := true, brine := none, steam := none,
          staggerMs := 30000 } ∧
      t.lif.cfg = { rate := 1, autoRate := false, lossCount := 3, counterWidth := 8, blindMs := 1000 } ∧
      (∀ c : Fin 9, t.evq.classes[c] = { log := true, attend := true, summary := false }) ∧
      t.mbc.failsafe =
        { speeds := Vector.replicate 16 0, heatCeiling := 0, shift := 0, bypass := 0, direct := Vector.replicate 8 0 } ∧
      t.mbc.timing = { hostMs := 2000, resolution := .ms1, syncHoldS := 60, stepMs := 1000 } ∧
      t.cap.cfg = { sources := [.pceil], decimation := 1, trigger := .none, postCount := 0 })

/-! ## The command port -/

/-- What taking a request does before and after its effect. Before: the receiver is in HUNT, and the host timer restarts in any
mode but CONFIG (R67, R171). After: the reply has the kind with bit 7 set, the tag, the status, the payload, and in its flags
the attention line, the link state and the overrun flag, which is cleared as it is copied; the buffer is full, and the reply
starts within 1 ms of the request, at a moment that is a free value (R173; log 21). The flags are taken after the effect (log 8).
The code of every status is that of Table 11-3 (R174); values go high byte first, and the flags of a flag byte from bit 0 up. -/
def Obligations.FrameHeardAndReplyFormed : Prop :=
  (∀ s : State, s.hears =
    { s with cpt := { s.cpt with rx := .hunt }
             mbc := { s.mbc with hostTimer :=
               if s.mbc.mode = .config then s.mbc.hostTimer else some ⟨s.now, s.mbc.timing.hostMs * 1000⟩ } }) ∧
  (∀ (kind : Byte) (r : Request) (st : Status) (payload : List Byte) (s : State),
    (let reply : Reply := ⟨kind ||| 0x80#8, r.tag, st, replyFlags s, payload⟩
      let rate := portRate s.straps
      ∃ delay, delay ≤ 1000 ∧ replied kind r st payload s =
        { s with
            cpt := { s.cpt with
              buffer := some { kind := kind, request := r, reply := reply, delay := delay,
                               sending := ⟨s.now, delay + (10000000 * reply.bytes.length + rate - 1) / rate⟩ }
              overrun := false }
            free := s.free + 1 }) ∧
    (replyFlags s).getLsbD 0 = s.evq.attnLow ∧
    (replyFlags s).getLsbD 1 = decide (s.mbc.link = .silent) ∧
    (replyFlags s).getLsbD 2 = s.cpt.overrun ∧
    (replyFlags s).toNat < 8) ∧
  (∀ st : Status, st.code = match st with
    | .ok => 0x00#8
    | .already => 0x01#8
    | .unknown => 0x10#8
    | .badLength => 0x11#8
    | .badIndex => 0x12#8
    | .badValue => 0x13#8
    | .badConfig => 0x14#8
    | .wrongMode => 0x20#8
    | .wrongState => 0x21#8
    | .notPermitted => 0x22#8
    | .onHold => 0x23#8
    | .linkLocked => 0x24#8
    | .blocked => 0x25#8) ∧
  (∀ x : Int,
    let w := BitVec.ofInt 16 x
    let d := BitVec.ofInt 32 x
    put8 x = [BitVec.ofInt 8 x] ∧ put16 x = [w.extractLsb' 8 8, w.extractLsb' 0 8] ∧
    put32 x = [d.extractLsb' 24 8, d.extractLsb' 16 8, d.extractLsb' 8 8, d.extractLsb' 0 8]) ∧
  (∀ (b : Bool) (bs : List Bool), flagByte [] = 0 ∧ flagByte (b :: bs) = (if b then 1 else 0) + 2 * flagByte bs)

/-- A row that is a good frame, met by an empty buffer, gets the answer of its kind's owner; a kind outside Table 11-4 gets
UNKNOWN with an empty payload. Met by a full buffer it is discarded: the overrun flag is set, the host timer restarts, and
nothing else changes (R67, R173). -/
def Obligations.GoodFrameTaken : Prop :=
  (∀ (c : Instr) (kind : Byte) (r : Request) (s : State), c.frame = some (kind, r) → s.held = false →
    (s.cpt.buffer = none → exec c s = .next (fillBuffer kind r (handlerOf kind r.payload s.hears))) ∧
    (s.cpt.buffer = none → (kind.toNat = 0 ∨ 31 < kind.toNat) → exec c s = .next (replied kind r .unknown [] s.hears)) ∧
    (s.cpt.buffer ≠ none → exec c s = .next
      { s with cpt := { s.cpt with rx := .hunt, overrun := true }
               mbc := { s.mbc with hostTimer :=
                 if s.mbc.mode = .config then s.mbc.hostTimer else some ⟨s.now, s.mbc.timing.hostMs * 1000⟩ } })) ∧
  (∀ (kind : Byte) (r : Request),
    (Instr.unknownKind kind r).frame = some (kind, r) ∧ (Instr.frameOverrunDiscard kind r).frame = some (kind, r))

/-- The line and the receiver. The rates of Table 11-1; a byte is a start bit 0, eight data bits, least significant first, and a
stop bit 1; a stop bit 0 makes it a byte with a framing error, after which none follows until the line is at 1 again (R170; the
start bit: log 40). In HUNT a 0xC3 moves the receiver to LENGTH and every other byte is ignored; in LENGTH a LEN of 3..250 moves
it to BODY and any other discards the frame; BODY takes LEN bytes, CHECK the two CRC bytes, and with the second the frame is
complete: one whose CRC does not match is discarded, one whose CRC matches is a good frame. A byte that starts more than 2 ms
after the last one is judged in HUNT, and the gap's row abandons the frame (R171; log 41). The bytes of a whole frame, taken one by
one from HUNT, do what its row does. A discard, a framing error or a gap leaves no trace but the receiver's state. The model's
choices: the row of a bad LEN carries any byte that arrives, and the rows of frames carry whole frames (log 31); framing errors
are asserted by their row (log 28), and a gap's row stands at the gap's end (log 3). -/
def Obligations.FailedFramesAreSilent : Prop :=
  (([0, 1, 2, 3] : List (BitVec 2)).map portRate = [57600, 115200, 230400, 460800] ∧
    ([0, 1, 2, 3] : List (BitVec 2)).map byteUs = [173, 86, 43, 21] ∧
    (∀ b : Byte, byteBits b = [false, b.getLsbD 0, b.getLsbD 1, b.getLsbD 2, b.getLsbD 3, b.getLsbD 4, b.getLsbD 5, b.getLsbD 6,
      b.getLsbD 7, true]) ∧
    (∀ (b : Byte) (levels : List Bool), LineRx.bytes .idle (byteBits b ++ levels) = .good b :: LineRx.bytes .idle levels) ∧
    (∀ data levels : List Bool, data.length = 8 →
      LineRx.bytes .idle (false :: data ++ false :: levels) = .framingError :: LineRx.bytes .low levels) ∧
    (∀ levels : List Bool, LineRx.bytes .idle (true :: levels) = LineRx.bytes .idle levels ∧
      LineRx.bytes .low (true :: levels) = LineRx.bytes .idle levels ∧
      LineRx.bytes .low (false :: levels) = LineRx.bytes .low levels) ∧
    (∀ n : Nat, 10 ≤ n → LineRx.bytes .idle (List.replicate n false) = [.framingError]) ∧
    (∀ (b : Byte) (s : State), s.held = false →
      exec (.badLenDiscard b) s = .next (takePortByte (.good b) s) ∧
      exec .framingErrorAbandon s = .next (takePortByte .framingError s))) ∧
  ∀ s : State, s.held = false →
    let rate := portRate s.straps
    let inTime : Time → Prop := fun last => elapsed last s.now * rate ≤ 2000 * rate + 10000000
    let rxAt : CptRx → State := fun rx => { s with cpt := { s.cpt with rx := rx } }
    (∀ (kind : Byte) (r : Request) (crc : Word), crc ≠ requestCrc kind r →
      exec (.crcMismatchDiscard kind r crc) s = .next (rxAt .hunt)) ∧
    (∀ (kind : Byte) (r : Request), exec (.crcMismatchDiscard kind r (requestCrc kind r)) s = exec (.frameOverrunDiscard kind r) s) ∧
    (s.cpt.rx = .hunt → ∀ b : Byte,
      exec (.badLenDiscard b) s = .next (if b = 0xC3#8 then rxAt (.length s.now) else s)) ∧
    (∀ last : Time, s.cpt.rx = .length last → inTime last → ∀ len : Byte,
      exec (.badLenDiscard len) s = .next (rxAt (if 3 ≤ len.toNat ∧ len.toNat ≤ 250 then .body s.now len [] else .hunt))) ∧
    (∀ (last : Time) (len : Byte) (taken : List Byte), s.cpt.rx = .body last len taken → inTime last → ∀ b : Byte,
      exec (.badLenDiscard b) s = .next (rxAt
        (if taken.length + 1 < len.toNat then .body s.now len (taken ++ [b]) else .check s.now len (taken ++ [b]) none))) ∧
    (∀ (last : Time) (len : Byte) (body : List Byte), s.cpt.rx = .check last len body none → inTime last → ∀ b : Byte,
      exec (.badLenDiscard b) s = .next (rxAt (.check s.now len body (some b)))) ∧
    (∀ (last : Time) (len kind tagHigh tagLow : Byte) (payload : List Byte) (crcHigh : Byte),
      s.cpt.rx = .check last len (kind :: tagHigh :: tagLow :: payload) (some crcHigh) → inTime last → ∀ b : Byte,
      exec (.badLenDiscard b) s = exec (.crcMismatchDiscard kind ⟨tagHigh ++ tagLow, payload⟩ (crcHigh ++ b)) s) ∧
    (∀ last : Time, s.cpt.rx.last = some last → ¬inTime last → ∀ b : Byte,
      exec (.badLenDiscard b) s = exec (.badLenDiscard b) (rxAt .hunt)) ∧
    (s.cpt.rx = .hunt → ∀ (kind : Byte) (r : Request) (crc : Word), r.payload.length ≤ 247 →
      let bytes : List Byte := [0xC3#8, BitVec.ofNat 8 (3 + r.payload.length), kind, r.tag.extractLsb' 8 8, r.tag.extractLsb' 0 8]
        ++ r.payload ++ [crc.extractLsb' 8 8, crc.extractLsb' 0 8]
      bytes.foldl (fun (o : Host.Outcome State Fault Refusal) b => match o with
        | .next t => exec (.badLenDiscard b) t
        | x => x) (.next s) = exec (.crcMismatchDiscard kind r crc) s) ∧
    exec .framingErrorAbandon s = .next (rxAt .hunt) ∧
    (s.cpt.rx = .hunt → exec .gapAbandon s = .next s) ∧
    (∀ last : Time, s.cpt.rx.last = some last → exec .gapAbandon s = .next
      { s.reachEnd ⟨last, 2000 + 10000000 / rate + 1⟩ with cpt := { s.cpt with rx := .hunt } })

/-- The CRC of R172: from 0xFFFF, byte by byte, most significant bit first, with the polynomial 0x1021; the reply carries it
high byte first after the bytes it covers; bytes followed by their own CRC have the CRC 0. -/
def Obligations.FrameCrc : Prop :=
  crc16 [] = 0xFFFF#16 ∧
  (∀ (bs : List Byte) (b : Byte),
    crc16 (bs ++ [b]) =
      (List.range 8).foldl (fun reg _ => if reg.msb then (reg <<< 1) ^^^ 0x1021#16 else reg <<< 1) (crc16 bs ^^^ (b ++ 0x00#8))) ∧
  crc16 [0x31#8, 0x32#8, 0x33#8, 0x34#8, 0x35#8, 0x36#8, 0x37#8, 0x38#8, 0x39#8] = 0x29B1#16 ∧
  (∀ (kind : Byte) (r : Request), requestCrc kind r =
    crc16 (BitVec.ofNat 8 (3 + r.payload.length) ::
      ([kind, r.tag.extractLsb' 8 8, r.tag.extractLsb' 0 8] ++ r.payload))) ∧
  (∀ p : Reply,
    let covered := BitVec.ofNat 8 (5 + p.payload.length) ::
      ([p.kind, p.tag.extractLsb' 8 8, p.tag.extractLsb' 0 8, p.status.code, p.flags] ++ p.payload)
    p.bytes = [0xC3#8] ++ covered ++ [(crc16 covered).extractLsb' 8 8, (crc16 covered).extractLsb' 0 8]) ∧
  (∀ bs : List Byte, crc16 (bs ++ [(crc16 bs).extractLsb' 8 8, (crc16 bs).extractLsb' 0 8]) = 0#16)

/-- IDENT changes nothing and answers Table 11-7; a payload is refused with BAD_LENGTH (R176). -/
def Obligations.IdentAnswered : Prop :=
  ∀ (r : Request) (s : State), s.ready →
    (r.payload ≠ [] → exec (.ident r) s = .next (replied 0x01 r .badLength [] s.hears)) ∧
    (r.payload = [] → exec (.ident r) s = .next
      (replied 0x01 r .ok
        [0x57#8, 0x42#8, 0x31#8, 0x60#8, 0x10#8, BitVec.ofNat 8 s.straps.toNat, 96#8, 64#8, 16#8, 8#8, 0x4C#8, 8#8, 64#8, 0x10#8, 0x00#8,
         16#8, 0x1F#8, 0#8] s.hears))

/-- What RESTART and entry into CONFIG leave: every block's runtime state at its reset values, written out, the tables, the queue,
the clock, the energy counter and the ring kept, no snapshot to process, the view at the reset values of every published record,
the attention line judged for the kept queue (R21, R38, R39, R52, R60, R71, R98, R118, R134, R153, R162, R169, R177). The values
of LIF that no table gives are log 30; the jobs' views of "the last snapshot processed" before any are log 13. -/
def Obligations.RuntimeResetLeaves : Prop :=
  ∀ s : State, let t := runtimeReset s
    let zero : Bank := ⟨Vector.replicate 16 0, 0, 0, 0, Vector.replicate 8 0⟩
    let result : PointResult := ⟨0, 0, 0, 0, false, .invalid, .normal, false, 0⟩
    let figures : HeatFigures := ⟨0, 0, .fallback, 0, 0, 0, 0, 0, 0⟩
    t.mbc.mode = .config ∧ t.mbc.link = .linked ∧ t.mbc.hostTimer = none ∧ t.mbc.pubBank = none ∧ t.mbc.pubCount = 0 ∧
    t.mbc.active = zero ∧ t.mbc.staging = zero ∧ t.mbc.origin = .default ∧ t.mbc.failsafe = s.mbc.failsafe ∧
    t.mbc.timing = s.mbc.timing ∧
    t.lif =
      { cfg := s.lif.cfg, rx := .off, selected := s.lif.cfg.rate, trial := none, hunt := none, dwell := none, ended := false,
        candidate := none, huntFrom := 0, expected := none, qualifying := 0, run := 0, badAlign := 0, edge := 0, frameEnd := 0,
        level := false, alignErr := ⟨0, false⟩, checkErr := ⟨0, false⟩, seqErr := ⟨0, false⟩, remoteAlarm := false, stationFault := false,
        buffer := Vector.replicate 168 none, continuous := false, blindTimer := none, blind := false,
        tx := { timer := none, rate := s.lif.cfg.rate, next := none, slots := Vector.replicate 168 0x8000#16, bit11 := false,
                line := none } } ∧
    t.tgd.guard = .tripped ∧ t.tgd.first = some .restarted ∧ t.tgd.causes = [.restarted] ∧ t.tgd.tripStamp = s.now ∧
    t.tgd.tripCount = 0 ∧ t.tgd.cap = none ∧ t.tgd.cfg = s.tgd.cfg ∧ t.tgd.lubeCount = 0 ∧ t.tgd.purityCount = 0 ∧
    t.tgd.stopDemand = 0 ∧ t.tgd.bypassDemand = 0 ∧ t.tgd.view = t.view ∧
    t.tgd.chain = ⟨.incomplete, .incomplete, .incomplete, .incomplete, .incomplete⟩ ∧
    t.acq.number = 0 ∧ t.acq.prevStamp = none ∧ t.acq.interval = none ∧ t.acq.first = true ∧
    (∀ i : ChannelNo, t.acq.chans[i] =
      { cfg := s.acq.chans[i].cfg, value := 0, quality := .stale, age := 255, lastRaw := 0x8000#16, trim := 0, pendingTrim := none,
        force := none, staleMark := false }) ∧
    (∀ i : OutputNo, t.out.outs[i] =
      { cfg := s.out.outs[i].cfg, demand := 0, issued := 0, rise := false, outOfService := false }) ∧ t.out.failSafe = false ∧
    (∀ i : WellNo, t.wsv.wells[i] =
      { cfg := s.wsv.wells[i].cfg, permit := s.wsv.wells[i].permit, hold := s.wsv.wells[i].hold,
        state := if s.wsv.wells[i].cfg.role = .unused then none else some .stopped, history := [], lastTrip := none,
        intakeCount := 0, flowBlind := false, intakeBlind := false, motorBlind := false, startTimer := none, runDemand := 0,
        speedDemand := 0 }) ∧
    t.wsv.plant = s.wsv.plant ∧ t.wsv.queue = [] ∧ t.wsv.slot = none ∧ t.wsv.stagger = none ∧ t.wsv.ceiling = 1000 ∧
    t.wsv.result = .notComputed ∧ t.wsv.deficit = false ∧ t.wsv.capacity = 0 ∧ t.wsv.threshold = 0 ∧ t.wsv.brineMark = false ∧
    t.wsv.view = t.view ∧
    (∀ i : PointNo, t.scm.points[i] =
      { cfg := s.scm.points[i].cfg, labValue := none, pendingLab := none, res := result, heldCount := 0, alarmCount := 0,
        clearCount := 0, tUsed := 0, cUsed := 0, computed := false }) ∧
    t.scm.curves = s.scm.curves ∧ t.scm.cf = 1000 ∧ t.scm.cfState = .none ∧ t.scm.cfHeld = 0 ∧ t.scm.fProd = 0 ∧
    t.scm.fBrine = 0 ∧ t.scm.lastSnap = none ∧
    t.hxu.cfg = s.hxu.cfg ∧ t.hxu.curve = s.hxu.curve ∧ t.hxu.energy = s.hxu.energy ∧ t.hxu.residue = s.hxu.residue ∧
    t.hxu.saturated = s.hxu.saturated ∧ t.hxu.fig = figures ∧ t.hxu.engaged = false ∧ t.hxu.deficit = false ∧
    t.hxu.heldCount = 0 ∧ t.hxu.planHeld = false ∧ t.hxu.inputMarks = Vector.replicate 7 false ∧ t.hxu.guardCount = 0 ∧
    t.hxu.reduction = 0 ∧ t.hxu.deficitCount = 0 ∧ t.hxu.scalingLimited = false ∧ t.hxu.lastSnap = none ∧
    t.cap = { s.cap with alarmMarks := Vector.replicate 8 false, lastTrips := 0 } ∧
    t.evq.queue = s.evq.queue ∧ t.evq.overrun = s.evq.overrun ∧ t.evq.classes = s.evq.classes ∧
    (t.evq.attnLow = true ↔
      (∃ x ∈ s.evq.queue, s.evq.classes[x.kind.cls].attend = true) ∨ 32 ≤ s.evq.queue.length) ∧
    t.view =
      { number := 0, stamp := 0, interval := none, chans := Vector.replicate 96 ⟨0, .stale, 255⟩, mode := .config, active := zero,
        origin := .default, link := .linked,
        wells := s.wsv.wells.map fun w => if w.cfg.role = .unused then none else some .stopped
        ceiling := 1000, result := .notComputed, deficit := false, guard := .tripped, first := some .restarted,
        causes := [.restarted], tripCount := 0, cap := none, points := Vector.replicate 8 result, cf := 1000, cfState := .none,
        heat := figures } ∧
    t.todo = ⟨false, false, false, false, false, false⟩ ∧
    t.clk = s.clk ∧ t.cpt = s.cpt ∧ t.straps = s.straps ∧ t.now = s.now ∧ t.held = s.held ∧ t.free = s.free ∧
    t.pending = s.pending

/-- RESTART: the reply is OK, and when its last byte has been sent the part restarts, with CPT empty in HUNT and no MODE event
(R173, R177). The last byte of any other reply empties the buffer and changes nothing else; with no reply going out, and for a
RESTART effect without its reply, nothing happens (R173; log 4). The reply starts at its own delay after the request (a free value
of at most 1 ms: log 21) and goes out on TXD at the strap rate, byte after byte with no gaps, ten bits each (the start bit:
log 40); before it, after it and without one TXD rests at 1 (R170, R173, R178). Its end stands at the end of its last byte (log 3). -/
def Obligations.RepliesEnd : Prop :=
  (∀ s : State, s.held = false →
     (∀ r : Request, s.cpt.buffer = none → r.payload = [] → exec (.restart r) s = .next (replied 0x04 r .ok [] s.hears)) ∧
     (∀ r : Request, s.cpt.buffer = none → r.payload ≠ [] → exec (.restart r) s = .next (replied 0x04 r .badLength [] s.hears)) ∧
     (∀ e, s.cpt.buffer = some e →
       let t := s.reachEnd e.sending
       (e.kind = 0x04#8 → e.reply.status = .ok → ∀ c, c = .replySent ∨ c = .restartEffect →
         exec c s = .next { runtimeReset t with cpt := ⟨.hunt, none, false⟩ }) ∧
       (¬(e.kind = 0x04#8 ∧ e.reply.status = .ok) →
         exec .replySent s = .next { t with cpt := { s.cpt with buffer := none } } ∧ exec .restartEffect s = .next s)) ∧
     (s.cpt.buffer = none → exec .replySent s = .next s ∧ exec .restartEffect s = .next s)) ∧
  (∀ s : State,
     (s.cpt.buffer = none → s.txd = true) ∧
     (∀ e, s.cpt.buffer = some e →
       let us := elapsed e.sending.start s.now
       let bit := (us - e.delay) * portRate s.straps / 1000000
       (us < e.delay → s.txd = true) ∧
       (e.delay ≤ us → 10 * e.reply.bytes.length ≤ bit → s.txd = true) ∧
       (∀ (k : Nat) (b : Byte), e.delay ≤ us → bit / 10 = k → e.reply.bytes[k]? = some b →
         s.txd = (if bit % 10 = 0 then false else if bit % 10 = 9 then true else b.getLsbD (bit % 10 - 1)))))

/-! ## Events, the clock -/

/-- What raising an event does (R158, R160): the class's summary flag is set; with the log enable set the stamped entry is the
newest, a queue of 64 giving up its oldest and setting the overrun flag; the line is judged again; nothing else changes. A
parameter is held in its low 32 bits (log 22). -/
def Obligations.EventRaised : Prop :=
  ∀ (k : EventKind) (subject param : Int) (s : State),
    let t := raise k subject param s
    let e : Entry := ⟨k, BitVec.ofInt 16 subject, BitVec.ofInt 32 param, s.clk.count⟩
    t = { s with evq := t.evq } ∧
    t.evq.classes[k.cls] = { s.evq.classes[k.cls] with summary := true } ∧
    (∀ c, c ≠ k.cls → t.evq.classes[c] = s.evq.classes[c]) ∧
    (s.evq.classes[k.cls].log = false → t.evq.queue = s.evq.queue ∧ t.evq.overrun = s.evq.overrun) ∧
    (s.evq.classes[k.cls].log = true → s.evq.queue.length < 64 →
      t.evq.queue = s.evq.queue ++ [e] ∧ t.evq.overrun = s.evq.overrun) ∧
    (s.evq.classes[k.cls].log = true → 64 ≤ s.evq.queue.length →
      t.evq.queue = s.evq.queue.tail ++ [e] ∧ t.evq.overrun = true) ∧
    (t.evq.attnLow = true ↔ (∃ x ∈ t.evq.queue, t.evq.classes[x.kind.cls].attend = true) ∨ 32 ≤ t.evq.queue.length)

/-- FETCH_EVENTS (R159): the oldest entries leave the queue and are returned, oldest first, twelve bytes each with the class and
event codes of Table 9-3, with the number left and the overrun flag, which is cleared; the line is judged again (R160). STATUS
(R161): ten bytes; with option 1 the summary flags are returned and cleared. -/
def Obligations.EventsAndStatusRead : Prop :=
  (∀ (r : Request) (s : State), s.ready →
     let events : List (Nat × EventKind × Nat) :=
       [(0, .loopRateFound, 1), (0, .loopLock, 2), (0, .loopUnlock, 3), (0, .loopStationFault, 4), (0, .loopRemoteAlarm, 5),
        (0, .loopRemoteClear, 6), (0, .loopCounterFull, 7), (0, .loopBlind, 8), (0, .loopBlindEnd, 9)] ++
       [(1, .chanStale, 1), (1, .chanFresh, 2), (1, .chanForceOn, 3), (1, .chanForceOff, 4)] ++
       [(2, .wellQueued, 1), (2, .wellGranted, 2), (2, .wellRunning, 3), (2, .wellStopped, 4), (2, .wellTrip, 5),
        (2, .wellLockout, 6), (2, .wellCleared, 7), (2, .wellService, 8), (2, .wellFlowBlind, 9), (2, .wellIntakeBlind, 10),
        (2, .wellMotorBlind, 11), (2, .wellDeficit, 12), (2, .wellDeficitEnd, 13), (2, .wellBrineBlind, 14)] ++
       [(3, .turbTrip, 1), (3, .turbCause, 2), (3, .turbCapOn, 3), (3, .turbStepDone, 4), (3, .turbStepLost, 5), (3, .turbReset, 6)] ++
       [(4, .heatInputStale, 1), (4, .heatFloorFallback, 2), (4, .heatFloorPoint, 3), (4, .heatGuardOn, 4), (4, .heatGuardOff, 5),
        (4, .heatDeficit, 6), (4, .heatDeficitEnd, 7), (4, .heatEnergyCleared, 8)] ++
       [(5, .scaleLab, 1), (5, .scaleCfHeld, 2), (5, .scaleCfValid, 3), (5, .scaleFloorUnreachable, 4), (5, .scaleHeld, 5),
        (5, .scaleInvalid, 6), (5, .scaleValid, 7), (5, .scaleAlarm, 8), (5, .scaleAlarmEnd, 9)] ++
       [(6, .bankMode, 1), (6, .bankSuperseded, 2), (6, .bankActivated, 3), (6, .bankSilent, 4), (6, .bankResumed, 5)] ++
       [(7, .captHalf, 1), (7, .captWrap, 2), (7, .captTriggered, 3), (7, .captFrozen, 4)] ++
       [(8, .clockRollover, 1), (8, .clockSet, 2), (8, .clockSourceB, 3), (8, .clockStep, 4)]
     let codes : EventKind → List Byte := fun k => match events.find? fun e => decide (e.2.1 = k) with
       | some (c, _, n) => [BitVec.ofNat 8 c, BitVec.ofNat 8 n]
       | none => []
     let bytes : Entry → List Byte := fun e =>
       codes e.kind ++ put16 e.subject.toNat ++ put32 e.param.toNat ++ put32 e.stamp.toNat
     (∀ k, ∃ c n, (c, k, n) ∈ events ∧ k.cls.val = c ∧ codes k = [BitVec.ofNat 8 c, BitVec.ofNat 8 n]) ∧
     (r.payload.length ≠ 1 → exec (.fetchEvents r) s = .next (replied 0x1B r .badLength [] s.hears)) ∧
     (∀ n : Byte, r.payload = [n] → n = 0 ∨ 8 < n.toNat →
       exec (.fetchEvents r) s = .next (replied 0x1B r .badValue [] s.hears)) ∧
     (∀ n : Byte, r.payload = [n] → 1 ≤ n.toNat → n.toNat ≤ 8 →
       let back := s.evq.queue.take n.toNat
       exec (.fetchEvents r) s = .next (replied 0x1B r .ok
         (put8 back.length ++ put8 (s.evq.queue.length - back.length : Nat) ++ put8 (if s.evq.overrun then 1 else 0)
           ++ back.flatMap bytes)
         { s.hears with evq := { s.evq with
             queue := s.evq.queue.drop n.toNat, overrun := false
             attnLow := attention (s.evq.queue.drop n.toNat) s.evq.classes } }))) ∧
  (∀ (r : Request) (s : State), s.ready →
     let flags : Int := flagByte (s.evq.classes.toList.map ClassEntry.summary)
     let mode : Int := match s.mbc.mode with
       | .config => 0
       | .standby => 1
       | .supervise => 2
       | .leaving => 3
     let source : Int := match s.clk.source with
       | .none => 0
       | .a => 1
       | .b => 2
     let bytes := put16 flags ++ put8 mode
       ++ put8 (flagByte [decide (s.mbc.link = .silent), s.evq.attnLow, s.evq.overrun, s.lif.blind]) ++ put8 s.evq.queue.length
       ++ put32 s.clk.count.toNat ++ put8 source
     bytes.length = 10 ∧
     (∀ c, c = .status r ∨ c = .statusClear r →
       (r.payload.length ≠ 1 → exec c s = .next (replied 0x02 r .badLength [] s.hears)) ∧
       (∀ o : Byte, r.payload = [o] → 1 < o.toNat → exec c s = .next (replied 0x02 r .badValue [] s.hears)) ∧
       (r.payload = [0x00#8] → exec c s = .next (replied 0x02 r .ok bytes s.hears)) ∧
       (r.payload = [0x01#8] → exec c s = .next (replied 0x02 r .ok bytes
         { s.hears with evq := { s.evq with classes := s.evq.classes.map fun e => { e with summary := false } } }))))

/-- The clock advances by one when one clock unit has run since its period began, its next period following on; its wrap raises
ROLLOVER (R154). TIME_SET (R155): the count, the period and SET with the signed difference; the synchronization state is
unchanged. -/
def Obligations.ClockAdvancesAndIsSet : Prop :=
  (∀ s : State, s.held = false →
     let unitMs := match s.mbc.timing.resolution with
       | .ms1 => 1
       | .ms10 => 10
       | .ms100 => 100
     unitMs * 1000 ≤ elapsed s.clk.period s.now →
     let t := { s with clk := { s.clk with
       count := s.clk.count + 1, period := s.clk.period + BitVec.ofNat 48 (unitMs * 1000) } }
     (s.clk.count ≠ 0xFFFFFFFF#32 → exec .clockAdvance s = .next t) ∧
     (s.clk.count = 0xFFFFFFFF#32 → exec .clockAdvance s = .next (raise .clockRollover 0 0 t))) ∧
  (∀ (r : Request) (s : State), s.ready →
     (r.payload.length ≠ 4 → exec (.timeSet r) s = .next (replied 0x1E r .badLength [] s.hears)) ∧
     (∀ a b c d : Byte, r.payload = [a, b, c, d] →
       let v : BitVec 32 := a ++ b ++ c ++ d
       exec (.timeSet r) s = .next (replied 0x1E r .ok (put32 v.toNat)
         (raise .clockSet 0 (v - s.clk.count).toInt
           { s.hears with clk := { s.clk with count := v, period := s.now } }))))

/-- TIME_SYNC from A is always taken; from B only when none from A stands within the sync hold; STEP above the threshold,
SOURCE_B at the changeover (R156). Every reply carries six bytes (log 9). -/
def Obligations.TimeSyncJudged : Prop :=
  ∀ (r : Request) (s : State) (i : Instr), s.ready → i = .timeSyncA r ∨ i = .timeSyncB r →
    let since : Option Time → Int := fun x => match x with
      | none => 255
      | some x => (min 255 (elapsed x s.now / 1000000) : Nat)
    let source : Int := match s.clk.source with
      | .none => 0
      | .a => 1
      | .b => 2
    let unitMs := match s.mbc.timing.resolution with
      | .ms1 => 1
      | .ms10 => 10
      | .ms100 => 100
    let asBefore := put32 s.clk.count.toNat ++ put8 source ++ put8 (since s.clk.lastA)
    let free := match s.clk.lastA with
      | none => true
      | some x => decide (s.mbc.timing.syncHoldS * 1000000 < elapsed x s.now)
    (r.payload.length ≠ 5 → exec i s = .next (replied 0x1F r .badLength asBefore s.hears)) ∧
    (∀ q a b c d : Byte, r.payload = [q, a, b, c, d] →
      let v : BitVec 32 := a ++ b ++ c ++ d
      let diff := (v - s.clk.count).toInt
      let steps := decide (s.mbc.timing.stepMs < diff.natAbs * unitMs)
      (1 < q.toNat → exec i s = .next (replied 0x1F r .badValue asBefore s.hears)) ∧
      (q = 0x01#8 → free = false → exec i s = .next (replied 0x1F r .wrongState asBefore s.hears)) ∧
      (q = 0x00#8 → exec i s = .next (replied 0x1F r .ok (put32 v.toNat ++ put8 1 ++ put8 0)
        (raiseIf steps .clockStep 0 diff
          { s.hears with clk := { s.clk with count := v, period := s.now, source := .a, lastA := some s.now } }))) ∧
      (q = 0x01#8 → free = true → exec i s = .next (replied 0x1F r .ok (put32 v.toNat ++ put8 2 ++ put8 (since s.clk.lastA))
        (raiseIf steps .clockStep 1 diff (raiseIf (decide (s.clk.source ≠ .b)) .clockSourceB 0 0
          { s.hears with clk := { s.clk with count := v, period := s.now, source := .b } })))))

/-! ## LIF -/

/-- In HUNT and SEARCH a match makes a candidate while none is under test; the candidate's three tests confirm it into FRAMED,
where SEARCH raises RATE_FOUND, or drop it, so that the hunt resumes one bit on, or moves on when the interval or dwell had
ended (R5, R6, R7). In FRAMED and LOCKED a run of bits is watched for line transitions (R13). The model's choices: the bit stream
itself is not held (log 20), the line silence runs from the last transition of the alignment word that confirms, with which the
frame in progress began, and only bits that a row brings are watched (log 43), an expiry stands at its timer's end (log 3), and a
row that cannot occur in the state has no effect (log 4). The hunt interval and the search dwell: at the end the receiver goes to
SEARCH at code 3, or to the next code of 3, 2, 1, 0, with no candidate under test; with one it marks the end. With auto-rate off the
interval has no effect (R6, R7). -/
def Obligations.HuntForFrames : Prop :=
  (∀ s : State, s.held = false →
     let l := s.lif
     let code : Rate := match l.trial with
       | none => 3
       | some c => c - 1
     (∀ (p : Nat) (bits : Word), exec (.candidateMatch p bits) s = .next
       (if (l.rx = .hunt ∨ l.rx = .search) ∧ l.candidate = none ∧ l.ended = false ∧ l.huntFrom ≤ p ∧ bits = 0xB74C#16 then
         { s with lif := { l with candidate := some p } }
       else if l.rx = .framed ∨ l.rx = .locked then { s with lif := l.watchRun bits s.now } else s)) ∧
     (∀ (w : CandidateWords) (c : Instr), c = .candidateConfirm w ∨ c = .candidateFail w →
       let i := (w.service0.extractLsb' 13 3).toNat
       let passes := i < 6 ∧ w.align1 = 0xB74C#16 ∧ (w.service1.extractLsb' 13 3).toNat = (i + 1) % 6 ∧ w.align2 = 0xB74C#16
       let framed : Lif :=
         { l with rx := .framed, selected := l.trial.getD l.selected, trial := none, hunt := none, dwell := none, ended := false,
                  candidate := none, expected := some (Fin.ofNat 6 (i + 2)), qualifying := 0, run := 0, badAlign := 0,
                  edge := s.now - BitVec.ofNat 48 (2 * (16 / 2 ^ (l.trial.getD l.selected).val)),
                  frameEnd := s.now - BitVec.ofNat 48 (16 * (16 / 2 ^ (l.trial.getD l.selected).val)),
                  level := w.service1.getLsbD 0 }
       ((l.rx ≠ .hunt ∧ l.rx ≠ .search) ∨ l.candidate = none → exec c s = .next s) ∧
       (∀ p, l.rx = .hunt ∨ l.rx = .search → l.candidate = some p →
         (passes → l.trial = none → exec c s = .next { s with lif := framed }) ∧
         (passes → ∀ x, l.trial = some x → exec c s = .next (raise .loopRateFound 0 x.val { s with lif := framed })) ∧
         (¬passes → l.ended = false → exec c s = .next { s with lif := { l with candidate := none, huntFrom := p + 1 } }) ∧
         (¬passes → l.ended = true → exec c s = .next
           { s with lif := { l with rx := .search, trial := some code, hunt := none, candidate := none, huntFrom := 0, ended := false,
                                    dwell := some ⟨s.now, 6 * (7680 / 2 ^ code.val)⟩ } })))) ∧
  (∀ s : State, s.held = false →
     let l := s.lif
     let code : Rate := match l.trial with
       | none => 3
       | some c => c - 1
     let next : Time → Lif := fun now =>
       { l with rx := .search, trial := some code, hunt := none, candidate := none, huntFrom := 0, ended := false,
                dwell := some ⟨now, 6 * (7680 / 2 ^ code.val)⟩ }
     (l.rx ≠ .hunt ∨ l.hunt = none → exec .huntIntervalExpiry s = .next s) ∧
     (l.rx ≠ .search ∨ l.dwell = none → exec .searchDwellExpiry s = .next s) ∧
     (∀ t, l.rx = .hunt → l.hunt = some t →
       (l.cfg.autoRate = false → exec .huntIntervalExpiry s = .next { s.reachEnd t with lif := { l with hunt := none } }) ∧
       (l.cfg.autoRate = true → l.candidate = none →
         exec .huntIntervalExpiry s = .next { s.reachEnd t with lif := next (s.reachEnd t).now }) ∧
       (l.cfg.autoRate = true → l.candidate ≠ none →
         exec .huntIntervalExpiry s = .next { s.reachEnd t with lif := { l with ended := true, hunt := none, dwell := none } })) ∧
     (∀ t, l.rx = .search → l.dwell = some t →
       (l.candidate = none → exec .searchDwellExpiry s = .next { s.reachEnd t with lif := next (s.reachEnd t).now }) ∧
       (l.candidate ≠ none →
         exec .searchDwellExpiry s = .next { s.reachEnd t with lif := { l with ended := true, hunt := none, dwell := none } })))

/-- A frame with a bad alignment word is counted, counts as the frame of the expected index, and is not taken; at the loss count
the receiver goes to HUNT, from LOCKED with UNLOCK 2 and the blind timer (R8, R14). The model's choices: the counter's event comes
first (log 16), and the expected index stands on entry into HUNT (log 29). Its bits are watched for line transitions (R13; log 43);
a frame before whose first transition the line had fallen silent is not judged (LossOfLine says so). -/
def Obligations.BadAlignmentJudged : Prop :=
  ∀ (s : State) (f : LoopFrame), s.held = false → s.lif.rx = .framed ∨ s.lif.rx = .locked → s.lif.fellSilent f s.now = false →
    f.align ≠ 0xB74C#16 →
    let s1 := countError .alignment { s with lif := s.lif.watch f s.now }
    let l : Lif :=
      { s1.lif with badAlign := s.lif.badAlign + 1, qualifying := 0, run := 0, expected := s.lif.expected.map (· + 1) }
    (s.lif.badAlign + 1 < s.lif.cfg.lossCount →
      exec (.frameJudge f) s = .next
        (if s.lif.rx = .locked ∧ s.lif.expected = some 5 then handOver { s1 with lif := l } else { s1 with lif := l })) ∧
    (s.lif.cfg.lossCount ≤ s.lif.badAlign + 1 →
      (s.lif.rx = .framed → exec (.frameJudge f) s = .next { s1 with lif := l.hunting s.now }) ∧
      (s.lif.rx = .locked → exec (.frameJudge f) s = .next
        (leftLocked 2 { s1 with lif := { l.hunting s.now with blindTimer := some (l.blindFrom s.now) } })))

/-- A frame whose index is out of sequence is counted and gives the expected index anew; FRAMED is kept, LOCKED falls to FRAMED
with UNLOCK 1 and the blind timer, the scan discarded (R9). That the counter's event comes first is log 16. Its bits are watched
for line transitions (R13; log 43); a frame before whose first transition the line had fallen silent is not judged (LossOfLine). -/
def Obligations.OutOfSequenceJudged : Prop :=
  ∀ (s : State) (f : LoopFrame), s.held = false → s.lif.rx = .framed ∨ s.lif.rx = .locked → s.lif.fellSilent f s.now = false →
    f.align = 0xB74C#16 →
    let i := (f.service.extractLsb' 13 3).toNat
    (match s.lif.expected with
      | none => 6 ≤ i
      | some e => i ≠ e.val) →
    let s1 := countError .sequence { s with lif := { s.lif.watch f s.now with badAlign := 0 } }
    let l : Lif :=
      { s1.lif with expected := if i < 6 then some (Fin.ofNat 6 (i + 1)) else none, qualifying := 0, run := 0 }
    (s.lif.rx = .framed → exec (.frameJudge f) s = .next { s1 with lif := l }) ∧
    (s.lif.rx = .locked → exec (.frameJudge f) s = .next (leftLocked 1 { s1 with lif :=
      { l with rx := .framed, buffer := Vector.replicate 168 none, continuous := false, blindTimer := some (l.blindFrom s.now) } }))

/-- A frame in sequence: a bad check byte is counted, the flags are taken; in LOCKED the slots of a good frame without station
fault enter the scan, which frame 5 hands over; in FRAMED six frames 0..5 qualify a scan, and the second such scan locks (R9,
R10, R11, R14). The order of the events of one frame is log 16. Its bits are watched for line transitions (R13; log 43); a frame
before whose first transition the line had fallen silent is not judged (LossOfLine). -/
def Obligations.InSequenceJudged : Prop :=
  ∀ (s : State) (f : LoopFrame) (i : Fin 6), s.held = false → s.lif.rx = .framed ∨ s.lif.rx = .locked →
    s.lif.fellSilent f s.now = false → f.align = 0xB74C#16 →
    (f.service.extractLsb' 13 3).toNat = i.val → s.lif.expected = none ∨ s.lif.expected = some i →
    let good := decide (checkByte f.slots = f.service.extractLsb' 0 8)
    let start : State := { s with lif := { s.lif.watch f s.now with badAlign := 0, expected := some (i + 1) } }
    let s1 := takeFlags i (f.service.getLsbD 11) (f.service.getLsbD 12) (if good then start else countError .check start)
    let b : ScanBuffer := Vector.ofFn fun k : Fin 168 => if k.val / 28 = i.val then f.slots[k.val % 28]? else s.lif.buffer[k]
    let s2 : State := if good && !f.service.getLsbD 11 then { s1 with lif := { s1.lif with buffer := b } } else s1
    let run := if i = 0 then 1 else if s.lif.run = i.val then s.lif.run + 1 else 0
    (s.lif.rx = .locked → exec (.frameJudge f) s = .next (if s.lif.expected = some 5 then handOver s2 else s2)) ∧
    (s.lif.rx = .framed → run < 6 → exec (.frameJudge f) s = .next { s1 with lif := { s1.lif with run := run } }) ∧
    (s.lif.rx = .framed → 6 ≤ run → s.lif.qualifying = 0 →
      exec (.frameJudge f) s = .next { s1 with lif := { s1.lif with run := 0, qualifying := 1 } }) ∧
    (s.lif.rx = .framed → 6 ≤ run → 1 ≤ s.lif.qualifying →
      exec (.frameJudge f) s = .next (enterLocked { s1 with lif := { s1.lif with run := 0, qualifying := s.lif.qualifying + 1 } }))

/-- The two flags read from a frame, with their events (R12), and what entering and leaving LOCKED does: LOCK, then the end of
BLIND with its event and the fail-safe state left (R10, R17, R18); UNLOCK beside the return of the permissive chain, in either
order (R111, R158; log 7). That STATION_FAULT comes before the remote alarm's event is log 16. -/
def Obligations.FlagsAndLock : Prop :=
  (∀ (i : Fin 6) (station remote : Bool) (s : State),
    takeFlags i station remote s =
      raiseIf (!remote && s.lif.remoteAlarm) .loopRemoteClear 0 0
        (raiseIf (remote && !s.lif.remoteAlarm) .loopRemoteAlarm 0 0
          (raiseIf (station && !s.lif.stationFault) .loopStationFault i.val 0
            { s with lif := { s.lif with stationFault := station, remoteAlarm := remote } }))) ∧
  (∀ s : State,
    let s1 := raise .loopLock 0 s.lif.selected.val
      { s with lif := { s.lif with rx := .locked, blindTimer := none, buffer := Vector.replicate 168 none, continuous := false } }
    let s2 := raise .loopBlindEnd 0 0 { s1 with lif := { s1.lif with blind := false } }
    (s.lif.blind = false → enterLocked s = s1) ∧
    (s.lif.blind = true → enterLocked s = { s2 with out := s2.out.leaveFailSafe s2.mbc.mode })) ∧
  (∀ (why : Int) (s : State),
    let free := { s with free := s.free + 1 }
    (leftLocked why s = chainReset (raise .loopUnlock 0 why free) ∨ leftLocked why s = raise .loopUnlock 0 why (chainReset free)) ∧
    chainReset s = raiseIf (decide (s.tgd.chain.s1 = .complete)) .turbStepLost 1 2
      { s with tgd := { s.tgd with chain := ⟨.incomplete, .incomplete, .incomplete, .incomplete, .incomplete⟩ } })

/-- No line transition for two frame times at the selected rate: FRAMED and LOCKED go to HUNT, LOCKED with UNLOCK 3 and the blind
timer; no counter moves, and the other states are unmoved (R13). The two frame times run from the last transition, which the bits of
a frame or of a run of 16 give: it stands where the last bit began that differs from the one before it, and stays where none does
(R1; log 43). A frame before whose first transition, or before whose end, the line had been silent so long is not judged: the
silence is taken, and the hunt interval and the blind timer run from its end (R13; log 43). A frame is judged in FRAMED and LOCKED
only (R8). The blind timer's expiry sets BLIND; in SUPERVISE and LEAVING every output in use goes to its fail-safe value, without
ramp, and every rise mark is cleared; the event and the turbine's cause BLIND follow in either order (R17, R46, R104, R158; log 7).
An expiry and the end of the silence stand at their timer's end (log 3), and one that cannot occur has no effect (log 4). -/
def Obligations.LossOfLine : Prop :=
  (∀ s : State, s.held = false →
     let t := s.reachEnd ⟨s.lif.edge, 2 * (7680 / 2 ^ s.lif.selected.val)⟩
     let u := s.lif.edge + BitVec.ofNat 48 (2 * (7680 / 2 ^ s.lif.selected.val))
     (s.lif.rx = .framed → exec .lineSilenceTimeout s = .next { t with lif := s.lif.hunting u }) ∧
     (s.lif.rx = .locked → exec .lineSilenceTimeout s = .next
       (leftLocked 3 { t with lif := { s.lif.hunting u with blindTimer := some (s.lif.blindFrom u) } })) ∧
     (s.lif.rx ≠ .framed → s.lif.rx ≠ .locked →
       exec .lineSilenceTimeout s = .next s ∧ ∀ f, exec (.frameJudge f) s = .next s) ∧
     (∀ f : LoopFrame, s.lif.rx = .framed ∨ s.lif.rx = .locked → s.lif.fellSilent f s.now = true →
       exec (.frameJudge f) s = exec .lineSilenceTimeout s)) ∧
  (∀ (l : Lif) (f : LoopFrame) (now : Time),
     let bit : Nat → Bool := fun n =>
       (if n / 16 = 0 then f.align else (f.slots[n / 16 - 1]?).getD f.service).getLsbD (15 - n % 16)
     let changes : Nat → Prop := fun n => bit n ≠ if n = 0 then l.level else bit (n - 1)
     (l.fellSilent f now = true ↔ 2 * (7680 / 2 ^ l.selected.val) < elapsed l.edge now ∧
       ∀ n, n < 480 → changes n →
         2 * (7680 / 2 ^ l.selected.val) + (480 - n) * (16 / 2 ^ l.selected.val) < elapsed l.edge now) ∧
     l.watch f now = { l with edge := (l.watch f now).edge, frameEnd := now, level := bit 479 } ∧
     ((∀ n, n < 480 → ¬changes n) → (l.watch f now).edge = l.edge) ∧
     (∀ n, n < 480 → changes n → (∀ m, n < m → m < 480 → ¬changes m) →
       (l.watch f now).edge = now - BitVec.ofNat 48 ((480 - n) * (16 / 2 ^ l.selected.val)))) ∧
  (∀ (l : Lif) (bits : Word) (now : Time),
     let changes : Nat → Prop := fun n => bits.getLsbD (15 - n) ≠ bits.getLsbD (16 - n)
     l.watchRun bits now = { l with edge := (l.watchRun bits now).edge } ∧
     ((∀ n, 1 ≤ n → n < 16 → ¬changes n) → (l.watchRun bits now).edge = l.edge) ∧
     (∀ n, 1 ≤ n → n < 16 → changes n → (∀ m, n < m → m < 16 → ¬changes m) →
       (l.watchRun bits now).edge = now - BitVec.ofNat 48 ((16 - n) * (16 / 2 ^ l.selected.val)))) ∧
  (∀ s : State, s.held = false →
     (s.lif.blindTimer = none → exec .blindTimerExpiry s = .next s) ∧
     (∀ t, s.lif.blindTimer = some t →
       let s1 : State := { s.reachEnd t with
         lif := { s.lif with blindTimer := none, blind := true }
         out := if s.mbc.mode = .supervise ∨ s.mbc.mode = .leaving then
             { outs := s.out.outs.map fun o => { o with issued := if o.cfg.inUse then o.cfg.failSafe else o.issued, rise := false }
               failSafe := true }
           else s.out
         free := s.free + 1 }
       exec .blindTimerExpiry s = .next (takeCause .blind false (raise .loopBlind 0 (t.duration / 1000 : Nat) s1)) ∨
       exec .blindTimerExpiry s = .next (raise .loopBlind 0 (t.duration / 1000 : Nat) (takeCause .blind false s1))))

/-- A scan start takes up the selected rate and fixes the 168 slots and bit 11; a frame start sends the frame of its index, bit
12 sampled then, frame after frame (R19, R20, R50). The line: through the n-th bit time of a frame its n-th bit stands on LTX,
word by word and in each word most significant bit first, and the line idles at 1 while the transmitter is stopped (R1, R19). The
check byte is the CRC-8 of the 28 slots (R2), and frame f, slot n of a position is word 28f + n of the scan. A
start stands at its timer's end (log 3), and one that is not due has no effect (log 4). -/
def Obligations.OutboundStarts : Prop :=
  (∀ s : State, s.held = false →
    let tx := s.lif.tx
    let drives := s.mbc.mode = .supervise ∨ s.mbc.mode = .leaving
    (tx.timer = none ∨ tx.next ≠ none → exec .outboundScanStart s = .next s) ∧
    (tx.timer = none ∨ tx.next = none → exec .outboundFrameStart s = .next s) ∧
    (∀ t, tx.timer = some t → tx.next = none → ∃ slots : Vector Word 168,
      exec .outboundScanStart s = .next { s.reachEnd t with lif := { s.lif with tx := { tx with
        rate := s.lif.selected, next := some 0, slots := slots, bit11 := decide drives && s.lif.blind } } } ∧
      (¬drives → ∀ k : Fin 168, slots[k] = 0x8000#16) ∧
      (∀ k : Fin 168, (∀ i : OutputNo, s.out.outs[i].cfg.inUse = true → s.out.outs[i].cfg.pos.index ≠ k) → slots[k] = 0x8000#16) ∧
      (drives → ∀ i : OutputNo, s.out.outs[i].cfg.inUse = true →
        (∀ j : OutputNo, s.out.outs[j].cfg.inUse = true → s.out.outs[j].cfg.pos = s.out.outs[i].cfg.pos → j = i) →
        slots[s.out.outs[i].cfg.pos.index] =
          if s.out.outs[i].outOfService then 0x8000#16
          else BitVec.ofInt 16 (if s.out.failSafe then s.out.outs[i].cfg.failSafe else s.out.outs[i].issued))) ∧
    (∀ t k, tx.timer = some t → tx.next = some k →
      let slots : Vector Word 28 := Vector.ofFn fun j : Fin 28 => tx.slots[28 * k.val + j.val]
      let service : Word := BitVec.ofNat 3 k.val ++ BitVec.ofBool (decide (s.lif.rx ≠ .locked)) ++ BitVec.ofBool tx.bit11 ++ 0#3
        ++ checkByte slots
      exec .outboundFrameStart s = .next { s.reachEnd t with lif := { s.lif with tx := { tx with
        timer := some ⟨t.start + BitVec.ofNat 48 t.duration, 7680 / 2 ^ tx.rate.val⟩
        next := if k = 5 then none else some (k + 1)
        line := some ⟨0x58E3#16, slots, service⟩ } } })) ∧
  (∀ (tx : Transmitter) (now : Time),
    (tx.timer = none ∨ tx.line = none → tx.level now = true) ∧
    (∀ (t : Timer) (f : LoopFrame) (word : Fin 30) (bit : Fin 16), tx.timer = some t → tx.line = some f →
      t.duration = 480 * (16 / 2 ^ tx.rate.val) → elapsed t.start now / (16 / 2 ^ tx.rate.val) = 16 * word.val + bit.val →
        tx.level now = (if word.val = 0 then f.align else (f.slots[word.val - 1]?).getD f.service).getLsbD (15 - bit.val))) ∧
  (∀ slots : Vector Word 28,
    let bytes : List Byte := slots.toList.flatMap fun w => [w.extractLsb' 8 8, w.extractLsb' 0 8]
    checkByte slots = bytes.foldl (fun reg b =>
      (List.range 8).foldl (fun reg _ => if reg.msb then (reg <<< 1) ^^^ 0x07#8 else reg <<< 1) (reg ^^^ b)) 0x00#8) ∧
  checkByte (Vector.replicate 28 0) = 0x00#8 ∧ checkByte ((Vector.replicate 28 0).set 27 0x0001#16) = 0x07#8 ∧
  (∀ p : Position, p.index.val = 28 * p.frame.val + p.slot.val)

/-- The error counters saturate at 255 or 1023, with COUNTER_FULL once for each full mark (R15); READ_LOOP returns nine bytes,
and with option 1 clears the counters and their marks (R16). -/
def Obligations.ErrorCountersAndReadLoop : Prop :=
  (∀ (k : ErrorKind) (s : State),
    let top := if s.lif.cfg.counterWidth = 8 then 255 else 1023
    let c := s.lif.counter k
    let full := decide (top ≤ c.count + 1)
    countError k s = raiseIf (full && !c.full) .loopCounterFull (match k with | .alignment => 0 | .check => 1 | .sequence => 2) top
      { s with lif := s.lif.setCounter k ⟨min top (c.count + 1), c.full || full⟩ }) ∧
  (∀ (l : Lif) (k j : ErrorKind) (c : ErrorCounter),
    (l.setCounter k c).counter j = if j = k then c else l.counter j) ∧
  (∀ (r : Request) (s : State) (c : Instr), s.ready → c = .readLoop r ∨ c = .readLoopClear r →
    let l := s.lif
    let rate := if s.mbc.mode = .config then l.cfg.rate else l.selected
    let rx : Int := match l.rx with
      | .off => 0
      | .search => 1
      | .hunt => 2
      | .framed => 3
      | .locked => 4
    let bytes := put8 rx ++ put8 rate.val
      ++ put8 (flagByte [l.remoteAlarm, l.stationFault, l.blind, l.blindTimer.isSome, l.cfg.autoRate]) ++ put16 l.alignErr.count
      ++ put16 l.checkErr.count ++ put16 l.seqErr.count
    bytes.length = 9 ∧
    (r.payload.length ≠ 1 → exec c s = .next (replied 0x1A r .badLength [] s.hears)) ∧
    (∀ o : Byte, r.payload = [o] → 1 < o.toNat → exec c s = .next (replied 0x1A r .badValue [] s.hears)) ∧
    (r.payload = [0x00#8] → exec c s = .next (replied 0x1A r .ok bytes s.hears)) ∧
    (r.payload = [0x01#8] → exec c s = .next (replied 0x1A r .ok bytes
      { s.hears with lif := { l with alignErr := ⟨0, false⟩, checkErr := ⟨0, false⟩, seqErr := ⟨0, false⟩ } })))

/-! ## ACQ -/

/-- The conversion of one channel in use (R25 to R30): the pending trim and last raw taken up, then the forced value, a fresh
value, or no reading; the events of forcing before STALE or FRESH. That a channel forced at the first snapshot after an exit from CONFIG raises
FORCE_ON is the model's reading of R26 beside R30 (log 35). -/
def Obligations.ChannelConverted : Prop :=
  (∀ (first : Bool) (slot : Option Word) (i : ChannelNo) (c : Channel),
    let d := (c.convert first slot i).1
    let trim := c.pendingTrim.getD c.trim
    let age := min 255 (c.age + 1)
    d.cfg = c.cfg ∧ d.force = c.force ∧ d.lastRaw = slot.getD c.lastRaw ∧ d.trim = trim ∧ d.pendingTrim = none ∧
    (∀ v, c.force = some v → d.value = v ∧ d.quality = .forced ∧ d.age = 0) ∧
    (∀ w, c.force = none → slot = some w → w ≠ 0x8000#16 →
      let sum := roundDiv ((if c.cfg.signedRaw then w.toInt else w.toNat) * c.cfg.gain) 1024 + c.cfg.offset + trim
      d.age = 0 ∧
      (sum < c.cfg.lo → d.value = c.cfg.lo ∧ d.quality = .clamped) ∧
      (c.cfg.lo ≤ sum → c.cfg.hi < sum → d.value = c.cfg.hi ∧ d.quality = .clamped) ∧
      (c.cfg.lo ≤ sum → sum ≤ c.cfg.hi → d.value = sum ∧ d.quality = .good)) ∧
    (c.force = none → slot = none ∨ slot = some 0x8000#16 →
      d.value = c.value ∧ d.age = age ∧ d.quality = if age < c.cfg.staleLimit then .held else .stale)) ∧
  (∀ (first : Bool) (slot : Option Word) (i : ChannelNo) (c : Channel),
    let d := (c.convert first slot i).1
    let stale := d.quality = .stale ∧ (c.quality ≠ .stale ∨ first = true)
    let fresh := c.staleMark = true ∧ (d.quality = .good ∨ d.quality = .clamped ∨ d.quality = .forced)
    let code : Int := match d.quality with
      | .good => 0
      | .clamped => 1
      | .held => 2
      | .stale => 3
      | .forced => 4
    (d.staleMark = true ↔ stale ∨ (c.staleMark = true ∧ ¬fresh)) ∧
    (c.convert first slot i).2 =
      (match c.force with
        | some v => if c.quality = .forced then [] else [⟨.chanForceOn, i.val, v⟩]
        | none => if c.quality = .forced then [⟨.chanForceOff, i.val, 0⟩] else [])
      ++ (if stale then [⟨.chanStale, i.val, c.cfg.staleLimit⟩] else [])
      ++ (if fresh then [⟨.chanFresh, i.val, code⟩] else [])) ∧
  (∀ (scan : ScanBuffer) (s : State) (i : ChannelNo),
    let c := s.acq.chans[i]
    let d := c.convert s.acq.first scan[c.cfg.pos.index] i
    (c.cfg.inUse = false → convertChannel scan s i = s) ∧
    (c.cfg.inUse = true →
      convertChannel scan s i = raiseAll d.2 { s with acq := { s.acq with chans := s.acq.chans.set i d.1 } }))

/-- A handover publishes one snapshot: jobs that still had one complete it (R36; in the order of log 5), the number rises by one, the
stamp is the time base, the interval is there for a continuous scan, and a free value where 32 bits do not hold it (log 6), the
channels in use are converted in ascending order and raise their events in that order, the view is fixed, every record in it as
it then stands (Table 2-6; log 26), and every job has it to process; the rise marks and the pending laboratory values are taken
up, and the scan buffer is emptied (R14, R23, R24, R30, R37, R44, R137). -/
def Obligations.SnapshotPublished : Prop :=
  ∀ s : State, s.held = false →
    let t := handOver s
    let converted : ChannelNo → Channel × List Report := fun i =>
      s.acq.chans[i].convert s.acq.first s.lif.buffer[s.acq.chans[i].cfg.pos.index] i
    ∃ s0 : State,
    [Instr.mbcProcessSnapshot, .wsvProcessSnapshot, .tgdProcessSnapshot, .hxuProcessSnapshot, .scmProcessSnapshot,
        .capProcessSnapshot].foldl (fun (o : Host.Outcome State Fault Refusal) c => match o with
      | .next u => exec c u
      | x => x) (.next s) = .next s0 ∧
    t.acq.number = s.acq.number + 1 ∧ t.acq.prevStamp = some s.now ∧ t.acq.first = false ∧
    (s.lif.continuous = false ∨ s.acq.prevStamp = none → t.acq.interval = none ∧ t.free = s0.free) ∧
    (∀ x, s.lif.continuous = true → s.acq.prevStamp = some x → elapsed x s.now < 2 ^ 32 →
      t.acq.interval = some (BitVec.ofNat 32 (elapsed x s.now)) ∧ t.free = s0.free) ∧
    (∀ x, s.lif.continuous = true → s.acq.prevStamp = some x → 2 ^ 32 ≤ elapsed x s.now →
      ∃ y, t.acq.interval = some y ∧ t.free = s0.free + 1) ∧
    (∀ i : ChannelNo, t.acq.chans[i] = if s.acq.chans[i].cfg.inUse then (converted i).1 else s.acq.chans[i]) ∧
    t.evq = ((List.finRange 96).foldl (fun u i => if s.acq.chans[i].cfg.inUse then
      (converted i).2.foldl (fun u e => raise e.kind e.subject e.param u) u else u) s0).evq ∧
    t.view =
      { number := s.acq.number + 1, stamp := s.now, interval := t.acq.interval
        chans := t.acq.chans.map fun c => ⟨c.value, c.quality, c.age⟩
        mode := s0.mbc.mode, active := s0.mbc.active, origin := s0.mbc.origin, link := s0.mbc.link
        wells := s0.wsv.wells.map fun w => w.state
        ceiling := s0.wsv.ceiling, result := s0.wsv.result, deficit := s0.wsv.deficit, guard := s0.tgd.guard,
        first := s0.tgd.first, causes := s0.tgd.causes, tripCount := s0.tgd.tripCount, cap := s0.tgd.cap
        points := s0.scm.points.map fun p => p.res
        cf := s0.scm.cf, cfState := s0.scm.cfState, heat := s0.hxu.fig } ∧
    t.todo = ⟨true, true, true, true, true, true⟩ ∧
    (∀ i : OutputNo, t.out.outs[i] = { s0.out.outs[i] with rise := false }) ∧ t.out.failSafe = s0.out.failSafe ∧
    (∀ i : PointNo, t.scm.points[i] = match s0.scm.points[i].pendingLab with
      | none => s0.scm.points[i]
      | some v => { s0.scm.points[i] with labValue := some v, pendingLab := none }) ∧
    t.scm = { s0.scm with points := t.scm.points } ∧
    t.lif = { s.lif with buffer := Vector.replicate 168 none, continuous := true } ∧ t.now = s.now ∧
    t.mbc = s0.mbc ∧ t.tgd = s0.tgd ∧ t.hxu = s0.hxu ∧ t.clk = s.clk ∧ t.cap = s0.cap ∧ t.wsv = s0.wsv ∧ t.cpt = s.cpt ∧
    t.straps = s.straps ∧ t.held = false ∧ t.pending = s.pending

/-- FORCE, UNFORCE and TRIM with their checks in order (R32, R33, R34); the order of checks is log 10. -/
def Obligations.ChannelRequests : Prop :=
  ∀ (r : Request) (s : State), s.ready →
    (r.payload.length ≠ 5 → exec (.force r) s = .next (replied 0x11 r .badLength [] s.hears)) ∧
    (r.payload.length ≠ 1 → exec (.unforce r) s = .next (replied 0x12 r .badLength [] s.hears)) ∧
    (r.payload.length ≠ 5 → exec (.trim r) s = .next (replied 0x13 r .badLength [] s.hears)) ∧
    (∀ i a b c d : Byte, r.payload = [i, a, b, c, d] → 96 ≤ i.toNat →
      exec (.force r) s = .next (replied 0x11 r .badIndex [] s.hears) ∧
      exec (.trim r) s = .next (replied 0x13 r .badIndex [] s.hears)) ∧
    (∀ i : Byte, r.payload = [i] → 96 ≤ i.toNat → exec (.unforce r) s = .next (replied 0x12 r .badIndex [] s.hears)) ∧
    (∀ i a b c d : Byte, r.payload = [i, a, b, c, d] → ∀ h : i.toNat < 96,
      let n : ChannelNo := ⟨i.toNat, h⟩
      let ch := s.acq.chans[n]
      let v := (a ++ b ++ c ++ d : BitVec 32).toInt
      let stored := if v < -32768 then -32768 else if 32767 < v then 32767 else v
      let lo : Int := if ch.cfg.kind = .temp then -2731 else 0
      let hi : Int := match ch.cfg.kind with
        | .temp => 20000
        | .press | .flow => 200000
        | .speed => 60000
        | .conc => 65535
        | .purity => 1000000
        | .state => 1
        | .level => 1000
      exec (.force r) s = .next
        (if s.mbc.mode = .config then replied 0x11 r .wrongMode [] s.hears
        else if ch.cfg.inUse = false then replied 0x11 r .wrongState [] s.hears
        else if v < lo ∨ hi < v then replied 0x11 r .badValue [] s.hears
        else replied 0x11 r .ok []
          { s.hears with acq := { s.acq with chans := s.acq.chans.set n { ch with force := some v } } }) ∧
      exec (.trim r) s = .next (replied 0x13 r .ok (put16 stored)
        { s.hears with acq := { s.acq with chans := s.acq.chans.set n { ch with pendingTrim := some stored } } })) ∧
    (∀ i : Byte, r.payload = [i] → ∀ h : i.toNat < 96,
      let n : ChannelNo := ⟨i.toNat, h⟩
      let ch := s.acq.chans[n]
      exec (.unforce r) s = .next
        (if s.mbc.mode = .config then replied 0x12 r .wrongMode [] s.hears
        else if ch.force = none then replied 0x12 r .already [] s.hears
        else replied 0x12 r .ok [] { s.hears with acq := { s.acq with chans := s.acq.chans.set n { ch with force := none } } }))

/-! ## OUT -/

/-- A demand update reaches every output in use that names the source (R41): the demand brought into range, and the issued value
moved under the rule of the mode (R42, R43, R45) unless the fail-safe state is set (R47); no other field of the state changes.
The end of BLIND acts on the demands in the same way (R48). -/
def Obligations.DemandDelivered : Prop :=
  let discrete : Source → Bool := fun x => match x with
    | .wellRun _ | .stopValve => true
    | _ => false
  let moved : Mode → Output → Output := fun m o =>
    match m with
    | .config => o
    | .standby => if o.demand < o.issued then { o with issued := o.demand } else o
    | _ =>
      if discrete o.cfg.source then { o with issued := o.demand }
      else if o.demand < o.issued then { o with issued := o.demand }
      else if o.demand = o.issued ∨ o.rise = true then o
      else { o with issued := min o.demand (o.issued + o.cfg.ramp), rise := true }
  (∀ (src : Source) (v : Int) (s : State),
    let t := deliver src v s
    let d := if discrete src then (if v = 0 then 0 else 1) else if v < 0 then 0 else if 1000 < v then 1000 else v
    t = { s with out := t.out } ∧ t.out.failSafe = s.out.failSafe ∧
    (s.mbc.mode = .config → t = s) ∧
    (∀ i : OutputNo, ¬(s.out.outs[i].cfg.inUse = true ∧ s.out.outs[i].cfg.source = src) → t.out.outs[i] = s.out.outs[i]) ∧
    (s.mbc.mode ≠ .config → ∀ i : OutputNo, s.out.outs[i].cfg.inUse = true → s.out.outs[i].cfg.source = src →
      t.out.outs[i] = if s.out.failSafe then { s.out.outs[i] with demand := d }
        else moved s.mbc.mode { s.out.outs[i] with demand := d })) ∧
  (∀ (m : Mode) (u : Out),
    (u.failSafe = false → u.leaveFailSafe m = u) ∧
    (u.failSafe = true → (u.leaveFailSafe m).failSafe = false ∧
      ∀ i : OutputNo, (u.leaveFailSafe m).outs[i] = if u.outs[i].cfg.inUse then moved m u.outs[i] else u.outs[i]))

/-- OUTPUT_CMD: the checks in order, the mark set or cleared, the issued value in the reply (R49); the replies of BAD_VALUE
and WRONG_STATE are empty (log 9); the order of checks is log 10. -/
def Obligations.OutputService : Prop :=
  ∀ (r : Request) (s : State) (c : Instr), s.ready → c = .outputCmdServiceOut r ∨ c = .outputCmdServiceIn r →
    (r.payload.length ≠ 2 → exec c s = .next (replied 0x0F r .badLength [] s.hears)) ∧
    (∀ i cmd : Byte, r.payload = [i, cmd] → 64 ≤ i.toNat → exec c s = .next (replied 0x0F r .badIndex [] s.hears)) ∧
    (∀ i cmd : Byte, r.payload = [i, cmd] → ∀ h : i.toNat < 64,
      let n : OutputNo := ⟨i.toNat, h⟩
      let o := s.out.outs[n]
      exec c s = .next
        (if 1 < cmd.toNat then replied 0x0F r .badValue [] s.hears
        else if o.cfg.inUse = false then replied 0x0F r .wrongState [] s.hears
        else if o.outOfService = decide (cmd = 0x00#8) then replied 0x0F r .already (put16 o.issued) s.hears
        else replied 0x0F r .ok (put16 o.issued)
          { s.hears with out := { s.out with outs := s.out.outs.set n { o with outOfService := decide (cmd = 0x00#8) } } }))

/-! ## MBC -/

/-- SET_MODE: Table 4-3, with the reply's mode after the request, and what each move does (R53 to R60). The consistency check is
the ten tests of Table 4-4 in order, each a list of what fails it in the order in which it is taken; the first failure of all
gives test, table, index, reason and detail (R56, R57; within tests 1 to 3: log 19). Entry into LEAVING empties the start queue:
every START_PENDING well, in ascending index, goes to STOPPED with run 0 and speed 0 and STOPPED with parameter 1 (R88). The
model's choices: the payloads of refusals (log 9), and the order of MODE and the wells' events on entry into LEAVING is free
(log 7). -/
def Obligations.ModeSet : Prop :=
  ∀ (r : Request) (s : State) (c : Instr), s.ready → c = .setModeConfig r ∨ c = .setModeStandby r ∨ c = .setModeSupervise r →
    let chan : ChannelNo → ChannelRecord := fun i => s.acq.chans[i].cfg
    let out : OutputNo → OutputRecord := fun i => s.out.outs[i].cfg
    let well : WellNo → WellRecord := fun i => s.wsv.wells[i].cfg
    let point : PointNo → PointRecord := fun i => s.scm.points[i].cfg
    let heat := s.hxu.cfg
    let turb := s.tgd.cfg
    let maybe : Nat → Nat → Option ChannelNo → Kind → List (Nat × Nat × ChannelNo × Kind) := fun table index x k => match x with
      | none => []
      | some x => [(table, index, x, k)]
    let named : List (Nat × Nat × ChannelNo × Kind) :=
      ((List.finRange 16).flatMap fun i => if (well i).role = .unused then [] else
        [(2, i.val, (well i).flow, .flow), (2, i.val, (well i).intake, .press)] ++ maybe 2 i.val (well i).motor .state)
      ++ maybe 8 0 s.wsv.plant.brine .flow ++ maybe 8 0 s.wsv.plant.steam .flow
      ++ [(7, 0, turb.speed, .speed), (7, 0, turb.lube, .press), (7, 0, turb.gear, .state), (7, 0, turb.purity, .purity)]
      ++ maybe 7 0 turb.field .state
      ++ (if heat.enable then [(6, 0, heat.outdoor, .temp), (6, 0, heat.districtReturn, .temp), (6, 0, heat.districtSupply, .temp),
        (6, 0, heat.districtFlow, .flow), (6, 0, heat.brineInlet, .temp), (6, 0, heat.brineOutlet, .temp),
        (6, 0, heat.brineFlow, .flow)] else [])
      ++ ((List.finRange 8).flatMap fun i => if (point i).inUse then
        (4, i.val, (point i).temp, .temp) :: (if (point i).lab then [] else maybe 4 i.val (point i).silica .conc) else [])
    let points : List (Nat × Nat × PointNo) :=
      ((List.finRange 16).flatMap fun i => match (well i).role, (well i).point with
        | .reinjection, some p => [(2, i.val, p)]
        | _, _ => [])
      ++ (match heat.enable, heat.floorPoint with
        | true, some p => [(6, 0, p)]
        | _, _ => [])
    let carried : Source → Bool := fun x => (List.finRange 64).any fun i => (out i).inUse && decide ((out i).source = x)
    let failures : List (List Nat) :=
      ((List.finRange 96).flatMap fun i => ((List.finRange 96).filter fun j => decide (j < i) && (chan i).inUse && (chan j).inUse
        && decide ((chan j).pos = (chan i).pos)).map fun j => [1, 0, i.val, 1, j.val])
      ++ ((List.finRange 64).flatMap fun i => ((List.finRange 64).filter fun j => decide (j < i) && (out i).inUse && (out j).inUse
        && decide ((out j).pos = (out i).pos)).map fun j => [2, 1, i.val, 1, j.val])
      ++ ((List.finRange 64).flatMap fun i => ((List.finRange 64).filter fun j => decide (j < i) && (out i).inUse && (out j).inUse
        && decide ((out j).source = (out i).source)).map fun j => [3, 1, i.val, 2, j.val])
      ++ ((List.finRange 64).flatMap fun i => match (out i).inUse, (out i).source with
        | true, .wellRun w | true, .wellSpeed w => if (well w).role = .unused then [[4, 1, i.val, 6, w.val]] else []
        | _, _ => [])
      ++ ((List.finRange 16).flatMap fun w =>
        if (well w).role = .unused ∨ (carried (.wellRun w) = true ∧ carried (.wellSpeed w) = true) then []
        else [[5, 2, w.val, 5, 255]])
      ++ (named.flatMap fun n => if (chan n.2.2.1).inUse then [] else [[6, n.1, n.2.1, 3, n.2.2.1.val]])
      ++ (named.flatMap fun n => if (chan n.2.2.1).kind = n.2.2.2 then [] else [[7, n.1, n.2.1, 4, n.2.2.1.val]])
      ++ (points.flatMap fun n => if (point n.2.2).inUse then [] else [[8, n.1, n.2.1, 9, n.2.2.val]])
      ++ ((List.finRange 8).flatMap fun i => if (point i).inUse = true ∧ s.scm.curves[(point i).curve].length < 2 then
        [[9, 4, i.val, 7, (point i).curve.val]] else [])
      ++ (if heat.enable = true ∧ s.hxu.curve.length < 2 then [[10, 5, 0, 8, 255]] else [])
    let emptied : State → State := fun s =>
      let t := (List.finRange 16).foldl (fun t i => if t.wsv.wells[i].state = some .startPending then
          raise .wellStopped i.val 1 (deliver (.wellSpeed i) 0 (deliver (.wellRun i) 0 { t with wsv := { t.wsv with
            wells := t.wsv.wells.set i { t.wsv.wells[i] with
              state := some .stopped, intakeCount := 0, flowBlind := false, intakeBlind := false, motorBlind := false,
              startTimer := none, runDemand := 0, speedDemand := 0 } } }))
        else t) s
      { t with wsv := { t.wsv with queue := [] } }
    (r.payload.length ≠ 1 → exec c s = .next (replied 0x03 r .badLength [] s.hears)) ∧
    (∀ m : Byte, r.payload = [m] → 2 < m.toNat → exec c s = .next (replied 0x03 r .badValue [] s.hears)) ∧
    (r.payload = [0x00#8] → exec c s = .next (match s.mbc.mode with
      | .config => replied 0x03 r .already [0x00#8] s.hears
      | .standby => replied 0x03 r .ok [0x00#8] (raise .bankMode 0 0 (runtimeReset s.hears))
      | .supervise => replied 0x03 r .wrongMode [0x02#8] s.hears
      | .leaving => replied 0x03 r .wrongMode [0x03#8] s.hears)) ∧
    (r.payload = [0x01#8] → s.mbc.mode = .config →
      (∀ f more, failures = f :: more →
        exec c s = .next (replied 0x03 r .badConfig (0x00#8 :: f.map (BitVec.ofNat 8)) s.hears)) ∧
      (failures = [] →
        let l : Lif := { s.lif with selected := s.lif.cfg.rate }
        let rx : Lif := if s.lif.cfg.autoRate then
            { l with rx := .search, trial := some 3, hunt := none, dwell := some ⟨s.now, 6 * 960⟩, ended := false, candidate := none,
                     huntFrom := 0 }
          else l.hunting s.now
        exec c s = .next (replied 0x03 r .ok [0x01#8] (raise .bankMode 0 1 { s.hears with
          mbc := { s.mbc with mode := .standby, link := .linked, hostTimer := some ⟨s.now, s.mbc.timing.hostMs * 1000⟩ }
          lif := { rx with blindTimer := some (l.blindFrom s.now), tx := { s.lif.tx with timer := some ⟨s.now, 0⟩, next := none } } })))) ∧
    (r.payload = [0x01#8] → s.mbc.mode ≠ .config → exec c s = .next (match s.mbc.mode with
      | .supervise => replied 0x03 r .ok [0x03#8] (enterLeaving s.hears)
      | .leaving => replied 0x03 r .already [0x03#8] s.hears
      | _ => replied 0x03 r .already [0x01#8] s.hears)) ∧
    (r.payload = [0x02#8] → exec c s = .next (match s.mbc.mode with
      | .config => replied 0x03 r .wrongMode [0x00#8] s.hears
      | .standby =>
        if s.lif.rx = .locked then
          replied 0x03 r .ok [0x02#8] (raise .bankMode 0 2 { s.hears with mbc := { s.hears.mbc with mode := .supervise } })
        else replied 0x03 r .wrongState [0x01#8] s.hears
      | .supervise => replied 0x03 r .already [0x02#8] s.hears
      | .leaving => replied 0x03 r .wrongMode [0x03#8] s.hears)) ∧
    (∃ s1 : State, s1 = { s with free := s.free + 1, mbc := { s.mbc with mode := .leaving } } ∧
      (enterLeaving s = emptied (raise .bankMode 0 3 s1) ∨ enterLeaving s = raise .bankMode 0 3 (emptied s1)))

/-- STAGE: length, link, field ids, in this order (log 10); the items written in order, clamped, into STAGING; the reply counts them
(R62). PUBLISH copies STAGING into PENDING with a new count, superseding an earlier copy (R63); RESUME ends SILENT and touches
no bank (R70). A PUBLISH taken after a publication fills PENDING after MBC's test for that snapshot (R64): MBC processes the
snapshot first if it has not (log 34). -/
def Obligations.BankRequestsTaken : Prop :=
  ((∀ (r : Request) (s : State), s.ready →
     let is := readItems r.payload
     exec (.stage r) s = .next
       (if r.payload.length % 3 ≠ 0 ∨ r.payload.length = 0 ∨ 32 * 3 < r.payload.length then replied 0x07 r .badLength [] s.hears
       else if s.mbc.link = .silent then replied 0x07 r .linkLocked [] s.hears
       else if ∃ i ∈ is, 26 < i.field then replied 0x07 r .badIndex [] s.hears
       else replied 0x07 r .ok (put8 is.length ++ put8 (is.filter fun i => decide (i.clamped ≠ i.value)).length)
         { s.hears with mbc := { s.hears.mbc with staging := is.foldl Bank.put s.mbc.staging } })) ∧
   readItems [] = [] ∧
   (∀ (f h l : Byte) (rest : List Byte), readItems (f :: h :: l :: rest) = ⟨f.toNat, (h ++ l : BitVec 16).toInt⟩ :: readItems rest) ∧
   (∀ i : Item, i.clamped = if i.field = 17 then max (-200) (min 200 i.value) else max 0 (min 1000 i.value)) ∧
   (∀ (b : Bank) (i : Item), i.field ≤ 26 →
     let b' := b.put i
     (∀ w : WellNo, b'.speeds[w] = if i.field = w.val then i.clamped else b.speeds[w]) ∧
     b'.heatCeiling = (if i.field = 16 then i.clamped else b.heatCeiling) ∧
     b'.shift = (if i.field = 17 then i.clamped else b.shift) ∧
     b'.bypass = (if i.field = 18 then i.clamped else b.bypass) ∧
     (∀ k : Fin 8, b'.direct[k] = if i.field = 19 + k.val then i.clamped else b.direct[k]))) ∧
  (∀ (r : Request) (s : State), s.ready →
     (r.payload ≠ [] → exec (.publish r) s = .next (replied 0x08 r .badLength [] s.hears) ∧
       exec (.resume r) s = .next (replied 0x0A r .badLength [] s.hears)) ∧
     (r.payload = [] →
       let n := s.mbc.pubCount + 1
       (∃ u, exec .mbcProcessSnapshot s.hears = .next u ∧ (s.todo.mbc = false → u = s.hears) ∧
         let full : State := { u with mbc := { u.mbc with pubCount := n, pubBank := some ⟨s.mbc.staging, n⟩ } }
         exec (.publish r) s = .next
           (if s.mbc.mode = .config then replied 0x08 r .wrongMode [] s.hears
           else if s.mbc.link = .silent then replied 0x08 r .linkLocked [] s.hears
           else replied 0x08 r .ok (put16 n.toNat) (match u.mbc.pubBank with
             | none => full
             | some old => raise .bankSuperseded 0 old.count.toNat full))) ∧
       exec (.resume r) s = .next
         (if s.mbc.link = .linked then replied 0x0A r .already [] s.hears
         else replied 0x0A r .ok [] (raise .bankResumed 0 0 { s.hears with mbc := { s.hears.mbc with link := .linked } }))))

/-- MBC at a snapshot: a full PENDING becomes ACTIVE with its event; DIRECT 0..7 are delivered from the ACTIVE bank of the view;
a snapshot published in LEAVING that shows no well STARTING ends LEAVING (R59, R64). The host timer's expiry: SILENT, PENDING
discarded, the FAILSAFE record made ACTIVE, the event with its two bits, the timer stopped (R68). The expiry stands at the timer's end (log 3);
with no snapshot to process, or no timer running, nothing happens (log 4). -/
def Obligations.BanksActivated : Prop :=
  (∀ s : State, s.held = false →
     (s.todo.mbc = false → exec .mbcProcessSnapshot s = .next s) ∧
     (s.todo.mbc = true →
       let s1 : State := { s with todo := { s.todo with mbc := false } }
       let s2 := match s.mbc.pubBank with
         | none => s1
         | some p => raise .bankActivated 0 p.count.toNat
             { s1 with mbc := { s.mbc with active := p.bank, origin := .published p.count, pubBank := none } }
       let s3 := (List.finRange 8).foldl (fun t i => deliver (.direct i) s.view.active.direct[i] t) s2
       exec .mbcProcessSnapshot s = .next
         (if s.mbc.mode = .leaving ∧ s.view.mode = .leaving ∧ ∀ i : WellNo, s.view.wells[i] ≠ some .starting then
           raise .bankMode 0 1 { s3 with mbc := { s3.mbc with mode := .standby } }
         else s3))) ∧
  (∀ s : State, s.held = false →
     (s.mbc.hostTimer = none → exec .hostTimerExpiry s = .next s) ∧
     (∀ t, s.mbc.hostTimer = some t → exec .hostTimerExpiry s = .next
       (raise .bankSilent 0 ((if s.mbc.pubBank = none then 0 else 1) + (if s.mbc.link = .silent then 2 else 0))
         { s.reachEnd t with mbc := { s.mbc with
             link := .silent, pubBank := none, active := s.mbc.failsafe, origin := .failsafe, hostTimer := none } })))

/-! ## WSV -/

/-- WELL_CMD: the six checks in order, the state code and the queue place in every reply but those of check 1's length and index
(R78, R79); the command that passes them acts. -/
def Obligations.WellCommandJudged : Prop :=
  ∀ (r : Request) (s : State) (c : Instr), s.ready →
    c = .wellCmdStart r ∨ c = .wellCmdStop r ∨ c = .wellCmdClear r ∨ c = .wellCmdServiceOut r ∨ c = .wellCmdServiceIn r ∨
      c = .wellCmdHold r ∨ c = .wellCmdRelease r →
    (r.payload.length ≠ 2 → exec c s = .next (replied 0x0B r .badLength [] s.hears)) ∧
    (∀ w k : Byte, r.payload = [w, k] → 16 ≤ w.toNat → exec c s = .next (replied 0x0B r .badIndex [] s.hears)) ∧
    (∀ w k : Byte, r.payload = [w, k] → ∀ h : w.toNat < 16,
      let i : WellNo := ⟨w.toNat, h⟩
      let x := s.wsv.wells[i]
      let n := k.toNat
      let reply : Status × State → State := fun out =>
        let place : Int := match out.2.wsv.queue.idxOf? i with
          | some n => n
          | none => 255
        let code : Int := match out.2.wsv.wells[i].state with
          | none => 0
          | some .outOfService => 1
          | some .stopped => 2
          | some .startPending => 3
          | some .starting => 4
          | some .running => 5
          | some .tripped => 6
          | some .lockedOut => 7
        replied 0x0B r out.1 (put8 code ++ put8 place) out.2
      exec c s = .next (reply
        (if 6 < n then (.badValue, s.hears)
        else if s.mbc.mode = .config ∨ (s.mbc.mode = .standby ∧ n < 5) ∨ (s.mbc.mode = .leaving ∧ n = 0) then (.wrongMode, s.hears)
        else if s.mbc.link = .silent ∧ (n = 0 ∨ n = 2 ∨ n = 4) then (.linkLocked, s.hears)
        else if (n = 0 ∧ x.permit.start = false) ∨ (n = 2 ∧ x.permit.clear = false) ∨ (n = 3 ∧ x.permit.serviceOut = false) ∨
          (n = 4 ∧ x.permit.serviceIn = false) then (.notPermitted, s.hears)
        else if x.hold = true ∧ (n = 0 ∨ n = 2 ∨ n = 3 ∨ n = 4) then (.onHold, s.hears)
        else if x.cfg.role = .unused ∧ n < 5 then (.wrongState, s.hears)
        else match n with
          | 0 => wellStart i s.hears
          | 1 => wellStop i s.hears
          | 2 => wellClear i s.hears
          | 3 => wellServiceOut i s.hears
          | 4 => wellServiceIn i s.hears
          | 5 => wellHold true i s.hears
          | _ => wellHold false i s.hears)))

/-- What each command of WELL_CMD does to the well's state, the start queue, the slot and the demands (R80 to R85, R87). The arbiter
acts on a released slot after the command's other effects (log 15). -/
def Obligations.WellCommandsAct : Prop :=
  ∀ (i : WellNo) (s : State),
    let v := s.wsv
    let w := v.wells[i]
    let reinjects : WellNo → Bool := fun j => decide (v.wells[j].cfg.role = .reinjection)
    let q := if w.cfg.role = .reinjection then v.queue.takeWhile reinjects ++ [i] ++ v.queue.dropWhile reinjects
      else v.queue ++ [i]
    let place : Int := match q.idxOf? i with
      | some n => n
      | none => 255
    let put : Well → State := fun x => { s with wsv := { v with wells := v.wells.set i x } }
    let stopped : Wsv → State := fun u => raise .wellStopped i.val 0 (deliver (.wellSpeed i) 0 (deliver (.wellRun i) 0
      { s with wsv := { u with
          queue := v.queue.erase i
          wells := v.wells.set i { w with
            state := some .stopped, intakeCount := 0, flowBlind := false, intakeBlind := false, motorBlind := false,
            startTimer := none, runDemand := 0, speedDemand := 0 } } }))
    let released : Wsv := { v with
      slot := none
      stagger := if v.stagger = none ∧ v.plant.staggerMs ≠ 0 then some ⟨s.now, v.plant.staggerMs * 1000⟩ else v.stagger }
    wellStart i s = (match w.state with
      | some .stopped => (.ok, arbiter (raise .wellQueued i.val place
          { s with wsv := { v with queue := q, wells := v.wells.set i { w with state := some .startPending } } }))
      | some .startPending | some .starting | some .running => (.already, s)
      | _ => (.wrongState, s)) ∧
    wellStop i s = (match w.state with
      | some .startPending | some .running => (.ok, stopped v)
      | some .starting => (.ok, arbiter (stopped released))
      | _ => (.ok, s)) ∧
    wellClear i s = (match w.state with
      | some .tripped => (.ok, raise .wellCleared i.val w.history.length (put { w with state := some .stopped }))
      | some .lockedOut => (.ok, raise .wellCleared i.val 0 (put { w with state := some .stopped, history := [] }))
      | _ => (.wrongState, s)) ∧
    wellServiceOut i s = (match w.state with
      | some .stopped | some .tripped | some .lockedOut =>
        (.ok, raise .wellService i.val 0 (put { w with state := some .outOfService }))
      | _ => (.wrongState, s)) ∧
    wellServiceIn i s = (match w.state with
      | some .outOfService => (.ok, raise .wellService i.val 1 (put { w with state := some .stopped, history := [] }))
      | _ => (.wrongState, s)) ∧
    (∀ b, wellHold b i s = if w.hold = b then (.already, s) else (.ok, put { w with hold := b }))

/-- The start arbiter grants the slot to the first eligible well of the queue, in SUPERVISE, with the slot free and the stagger
timer stopped (R86); the stagger timer's expiry is its event (R87), and so is the trip that a start timer's expiry takes (R90).
An expiry stands at its timer's end (log 3), one that cannot occur has no effect (log 4), and the arbiter acts last (log 15). -/
def Obligations.StartsGranted : Prop :=
  (∀ s : State,
    let v := s.wsv
    let eligible : WellNo → Prop := fun i => v.wells[i].cfg.role = .reinjection ∨ (v.deficit = false ∧ v.view.cap = none)
    let free := s.mbc.mode = .supervise ∧ v.slot = none ∧ v.stagger = none
    (¬free ∨ (∀ i ∈ v.queue, ¬eligible i) → arbiter s = s) ∧
    (∀ (before : List WellNo) (i : WellNo) (after : List WellNo),
      free → v.queue = before ++ i :: after → (∀ j ∈ before, ¬eligible j) → eligible i →
      let w := v.wells[i]
      let target := if w.cfg.role = .production then v.view.active.speeds[i] * v.ceiling / 1000 else v.view.active.speeds[i]
      let speed := min w.cfg.startSpeed target
      arbiter s = raise .wellGranted i.val speed (deliver (.wellSpeed i) speed (deliver (.wellRun i) 1
        { s with wsv := { v with
            queue := before ++ after, slot := some i
            wells := v.wells.set i { w with
              state := some .starting, startTimer := some ⟨s.now, w.cfg.startMs * 1000⟩, runDemand := 1,
              speedDemand := speed } } })))) ∧
  (∀ s : State, s.held = false →
    (s.wsv.stagger = none → exec .staggerTimerExpiry s = .next s) ∧
    (∀ t, s.wsv.stagger = some t →
      exec .staggerTimerExpiry s = .next (arbiter { s.reachEnd t with wsv := { s.wsv with stagger := none } })) ∧
    (∀ i : WellNo, s.wsv.wells[i].state ≠ some .starting ∨ s.wsv.wells[i].startTimer = none →
      exec (.startTimerExpiry i) s = .next s) ∧
    (∀ (i : WellNo) (t : Timer), s.wsv.wells[i].state = some .starting → s.wsv.wells[i].startTimer = some t →
      exec (.startTimerExpiry i) s = .next (arbiter (tripWell .startFail i (s.reachEnd t)))))

/-- A trip of a well: the slot released from STARTING, the history pruned and given the stamp, TRIPPED or LOCKED_OUT with its
event, and run 0 and speed 0 delivered (R87, R93). The tests of a STARTING and of a RUNNING well at a snapshot, in their order
(R89, R91, R92); the channels read are those the tests come to (log 14). The run and speed demand of every well state, which a
snapshot delivers (R74, Table 5-4). -/
def Obligations.WellsTestedAndTripped : Prop :=
  (∀ (c : TripCause) (i : WellNo) (s : State),
     let v := s.wsv
     let w := v.wells[i]
     let recent := w.history.filter fun x => decide (elapsed x s.now ≤ w.cfg.windowMin * 60000000)
     let history := recent.drop (recent.length - 3) ++ [s.now]
     let locked := w.cfg.tripLimit ≤ history.length
     let u : Wsv := if w.state = some .starting then { v with
         slot := none
         stagger := if v.stagger = none ∧ v.plant.staggerMs ≠ 0 then some ⟨s.now, v.plant.staggerMs * 1000⟩ else v.stagger }
       else v
     history.length ≤ 4 ∧
     tripWell c i s = deliver (.wellSpeed i) 0 (deliver (.wellRun i) 0
       (raise (if locked then .wellLockout else .wellTrip) i.val (match c with | .startFail => 1 | .lowIntake => 2 | .motor => 3)
         { s with wsv := { u with wells := v.wells.set i { w with
             state := some (if locked then .lockedOut else .tripped), history := history, lastTrip := some c, intakeCount := 0,
             flowBlind := false, intakeBlind := false, motorBlind := false, startTimer := none, runDemand := 0,
             speedDemand := 0 } } }))) ∧
  (∀ (i : WellNo) (s : State),
     let v := s.wsv
     let w := v.wells[i]
     let target := if w.cfg.role = .production then v.view.active.speeds[i] * v.ceiling / 1000 else v.view.active.speeds[i]
     let run : Int := match w.state with
       | some .starting | some .running => 1
       | _ => 0
     let speed : Int := match w.state with
       | some .starting => min w.cfg.startSpeed target
       | some .running => target
       | _ => 0
     deliverWell i s = deliver (.wellSpeed i) speed (deliver (.wellRun i) run
       { s with wsv := { v with wells := v.wells.set i { w with runDemand := run, speedDemand := speed } } })) ∧
  (∀ (i : WellNo) (s : State),
     let w := s.wsv.wells[i]
     noteFlow i s = noteBlind .wellFlowBlind i s.wsv.view.chans[w.cfg.flow] w.flowBlind (fun b x => { x with flowBlind := b }) s ∧
     noteIntake i s = noteBlind .wellIntakeBlind i s.wsv.view.chans[w.cfg.intake] w.intakeBlind
       (fun b x => { x with intakeBlind := b }) s ∧
     noteMotor i s = (match w.cfg.motor with
       | none => s
       | some ch => noteBlind .wellMotorBlind i s.wsv.view.chans[ch] w.motorBlind (fun b x => { x with motorBlind := b }) s)) ∧
  (∀ (i : WellNo) (s : State),
     (∀ w : Well, s.setWell i w = { s with wsv := { s.wsv with wells := s.wsv.wells.set i w } }) ∧
     (∀ (k : EventKind) (x : Reading) (marked : Bool) (put : Bool → Well → Well),
       noteBlind k i x marked put s =
         if x.quality ≠ .stale then s.setWell i (put false s.wsv.wells[i])
         else if marked then s else raise k i.val 0 (s.setWell i (put true s.wsv.wells[i]))) ∧
     (let s1 := noteMotor i s
       let w := s1.wsv.wells[i]
       let tripped := ∃ ch, w.cfg.motor = some ch ∧ s1.wsv.view.chans[ch].quality ≠ .stale ∧ s1.wsv.view.chans[ch].value = 1
       let s2 := noteFlow i s1
       let flow := s2.wsv.view.chans[s2.wsv.wells[i].cfg.flow]
       let s3 := noteIntake i s2
       let w3 := s3.wsv.wells[i]
       let intake := s3.wsv.view.chans[w3.cfg.intake]
       let n := if intake.quality = .stale then w3.intakeCount
         else if intake.value < w3.cfg.intakeLimit then min 255 (w3.intakeCount + 1) else 0
       let s4 := s3.setWell i { w3 with intakeCount := n }
       (tripped → testStarting i s = tripWell .motor i s1 ∧ testRunning i s = tripWell .motor i s1) ∧
       (¬tripped → testStarting i s =
         if flow.quality ≠ .stale ∧ s2.wsv.wells[i].cfg.minFlow ≤ flow.value then
           raise .wellRunning i.val flow.value { s2 with wsv := { s2.wsv with
             slot := none
             stagger := if s2.wsv.stagger = none ∧ s2.wsv.plant.staggerMs ≠ 0 then
                 some ⟨s2.now, s2.wsv.plant.staggerMs * 1000⟩ else s2.wsv.stagger
             wells := s2.wsv.wells.set i
               { s2.wsv.wells[i] with state := some .running, startTimer := none, intakeCount := 0 } } }
         else s2) ∧
       (¬tripped → testRunning i s = if w3.cfg.intakePersistence ≤ n then tripWell .lowIntake i s4 else s4)) ∧
     processWell s i = (match s.wsv.wells[i].state with
       | none => s
       | some .starting => deliverWell i (testStarting i s)
       | some .running => deliverWell i (testRunning i s)
       | _ => deliverWell i s))

/-- WSV at a snapshot. In STANDBY it limits P by the cap and delivers every well's demands (R77); in SUPERVISE and LEAVING it
takes balance, ceiling, wells and grant in this order (R76, R94, R95, R96); a grant in phase 4 in SUPERVISE, or where the slot came
free (log 15). With no snapshot to process nothing happens (log 4). -/
def Obligations.WsvSnapshotProcessed : Prop :=
  (∀ s : State, s.held = false →
    let demands : State → WellNo → State := fun t i =>
      let v := t.wsv
      let w := v.wells[i]
      let target := if w.cfg.role = .production then v.view.active.speeds[i] * v.ceiling / 1000 else v.view.active.speeds[i]
      let run : Int := match w.state with
        | some .starting | some .running => 1
        | _ => 0
      let speed : Int := match w.state with
        | some .starting => min w.cfg.startSpeed target
        | some .running => target
        | _ => 0
      deliver (.wellSpeed i) speed (deliver (.wellRun i) run
        { t with wsv := { v with wells := v.wells.set i { w with runDemand := run, speedDemand := speed } } })
    (s.todo.wsv = false → exec .wsvProcessSnapshot s = .next s) ∧
    (s.todo.wsv = true →
      let s1 : State := { s with todo := { s.todo with wsv := false }, wsv := { s.wsv with view := s.view } }
      let p := match s.view.cap with
        | none => s.wsv.ceiling
        | some c => min s.wsv.ceiling c.value
      (s.view.mode = .standby → exec .wsvProcessSnapshot s = .next
        ((List.finRange 16).foldl (fun t i => if t.wsv.wells[i].state = none then t else demands t i)
          { s1 with wsv := { s1.wsv with ceiling := p } })) ∧
      (s.view.mode = .supervise ∨ s.view.mode = .leaving →
        let s2 := (List.finRange 16).foldl processWell (wsvCeiling (wsvBalance s1))
        exec .wsvProcessSnapshot s = .next
          (if s.view.mode = .supervise ∨ (s.wsv.slot ≠ none ∧ s2.wsv.slot = none) then arbiter s2 else s2)))) ∧
  (∀ s : State,
    let v := s.wsv
    let shares := v.wells.toList.map fun w =>
      if w.cfg.role = .reinjection ∧ w.state = some .running then
        roundDiv (w.cfg.rated * (match w.cfg.point with
          | none => 1000
          | some p => if v.view.points[p].state = .alarm ∧ v.view.points[p].validity ≠ .invalid then w.cfg.derate else 1000)) 1000
      else 0
    let c := shares.sum
    let threshold := roundDiv (c * (1000 - v.plant.margin)) 1000
    (v.plant.check = false ∨ v.plant.brine = none → wsvBalance s = { s with wsv := { v with result := .notComputed } }) ∧
    (∀ ch, v.plant.check = true → v.plant.brine = some ch →
      let f := v.view.chans[ch]
      let s1 : State := { s with wsv := { v with capacity := c, threshold := threshold } }
      let isNow := decide (c < f.value)
      (f.quality = .stale → wsvBalance s = raiseIf (!v.brineMark) .wellBrineBlind 0 0
        { s1 with wsv := { s1.wsv with result := .held, brineMark := true } }) ∧
      (f.quality ≠ .stale → wsvBalance s =
        raiseIf (v.deficit && !isNow) .wellDeficitEnd 0 0 (raiseIf (!v.deficit && isNow) .wellDeficit 0 (f.value - c)
          { s1 with wsv := { s1.wsv with
              result := if c < f.value then .deficit else if f.value ≤ threshold then .surplus else .hold
              deficit := isNow, brineMark := false } })))) ∧
  (∀ s : State,
    let v := s.wsv
    let limit := match v.view.cap with
      | none => 1000
      | some c => c.value
    wsvCeiling s = { s with wsv := { v with ceiling := match v.result with
      | .deficit => min limit (max (v.ceiling - v.plant.runback) v.plant.ceilingMin)
      | .surplus => min limit (v.ceiling + v.plant.recover)
      | _ => min limit v.ceiling } })

/-! ## TGD -/

/-- A cause taken (R104): from ARMED the trip with its stamp and count, then stop valve, bypass and trip cap in this order
(R105, R106, R107); while TRIPPED a new cause joins the set, and one already there does nothing. When a cause is active now
(R115). -/
def Obligations.CauseTaken : Prop :=
  (∀ (g : Tgd) (blind : Bool),
    let ch := g.view.chans
    (g.activeNow blind .overspeed = true ↔ ch[g.cfg.speed].quality = .stale ∨ g.cfg.tripSpeed ≤ ch[g.cfg.speed].value) ∧
    (g.activeNow blind .lubeLow = true ↔ ch[g.cfg.lube].quality = .stale ∨ ch[g.cfg.lube].value < g.cfg.lubeTrip) ∧
    (g.activeNow blind .purityHigh = true ↔ ch[g.cfg.purity].quality = .stale ∨ g.cfg.purityTrip < ch[g.cfg.purity].value) ∧
    (g.activeNow blind .field = true ↔ ∃ n, g.cfg.field = some n ∧ (ch[n].quality = .stale ∨ ch[n].value = 1)) ∧
    g.activeNow blind .blind = blind ∧ g.activeNow blind .hostTrip = false ∧ g.activeNow blind .restarted = false) ∧
  ∀ (c : Cause) (stale : Bool) (s : State),
    let g := s.tgd
    let code : Int := match c with
      | .overspeed => 1
      | .lubeLow => 2
      | .purityHigh => 3
      | .field => 4
      | .blind => 5
      | .hostTrip => 6
      | .restarted => 7
    let param := code + if stale then 256 else 0
    let bypass := max g.view.active.bypass g.cfg.bypassPosition
    let s1 := raise .turbTrip 0 param { s with tgd := { g with
      guard := .tripped, first := some c, causes := [c], tripStamp := s.now, tripCount := g.tripCount + 1 } }
    let s2 := deliver .stopValve 0 { s1 with tgd := { s1.tgd with stopDemand := 0 } }
    let s3 := deliver .bypassValve bypass { s2 with tgd := { s2.tgd with bypassDemand := bypass } }
    let cap : Option Cap := match s.wsv.plant.steam with
      | none => none
      | some ch =>
        let f := g.view.chans[ch]
        if f.quality = .stale then some ⟨s.wsv.plant.ceilingMin, true⟩
        else if f.value ≤ g.cfg.bypassCapacity then none
        else some ⟨max (g.cfg.bypassCapacity * 1000 / f.value) s.wsv.plant.ceilingMin, false⟩
    let s4 : State := { s3 with tgd := { s3.tgd with cap := cap } }
    (g.guard = .armed → takeCause c stale s = match cap with
      | none => s4
      | some x => raise .turbCapOn (if x.stale then 1 else 0) x.value s4) ∧
    (g.guard = .tripped → c ∉ g.causes →
      takeCause c stale s = raise .turbCause 0 param { s with tgd := { g with causes := g.causes ++ [c] } }) ∧
    (g.guard = .tripped → c ∈ g.causes → takeCause c stale s = s)

/-- TURBINE_CMD: the checks in order, TRIP, RESET and RELEASE, and three bytes in every reply (R112, R113, R114, R116; log 9).
-/
def Obligations.TurbineCommandJudged : Prop :=
  ∀ (r : Request) (s : State) (c : Instr), s.ready →
    c = .turbineCmdTrip r ∨ c = .turbineCmdReset r ∨ c = .turbineCmdRelease r →
    let g := s.tgd
    let reply : Status → Int → Int → State → State := fun st kind item t =>
      replied 0x0D r st (put8 (match t.tgd.guard with | .armed => 0 | .tripped => 1) ++ put8 kind ++ put8 item) t
    let notDone : Int × StepState → Bool := fun x => decide (x.2 ≠ .complete)
    let causes : List (Int × Cause) :=
      [(1, .overspeed), (2, .lubeLow), (3, .purityHigh), (4, .field), (5, .blind), (6, .hostTrip), (7, .restarted)]
    let first : Int := match g.first with
      | none => 0
      | some .overspeed => 1
      | some .lubeLow => 2
      | some .purityHigh => 3
      | some .field => 4
      | some .blind => 5
      | some .hostTrip => 6
      | some .restarted => 7
    let steps : List (Int × StepState) := [(1, g.chain.s1), (2, g.chain.s2), (3, g.chain.s3), (4, g.chain.s4)]
    (r.payload.length ≠ 1 → exec c s = .next (reply .badLength 0 0 s.hears)) ∧
    (∀ k : Byte, r.payload = [k] → 2 < k.toNat → exec c s = .next (reply .badValue 0 0 s.hears)) ∧
    (r.payload = [0x00#8] → exec c s = .next
      (if s.mbc.mode = .config then reply .wrongMode 0 0 s.hears
      else if g.guard = .tripped ∧ .hostTrip ∈ g.causes then reply .already 0 0 s.hears
      else reply .ok 0 0 (takeCause .hostTrip false s.hears))) ∧
    (r.payload = [0x01#8] → exec c s = .next
      (if s.mbc.mode ≠ .supervise then reply .wrongMode 0 0 s.hears
      else if s.mbc.link = .silent then reply .linkLocked 0 0 s.hears
      else if g.guard = .armed then reply .already 0 0 s.hears
      else match causes.find? (fun x => g.activeNow s.lif.blind x.2), (steps ++ [(5, g.chain.s5)]).find? notDone with
        | some x, _ => reply .blocked 1 x.1 s.hears
        | none, some x => reply .blocked 2 x.1 s.hears
        | none, none => reply .ok 0 0 (raise .turbReset 0 first
            (deliver .bypassValve g.view.active.bypass (deliver .stopValve 1
              { s.hears with tgd := { g with
                  guard := .armed, first := none, causes := [], cap := none, chain := { g.chain with s5 := .incomplete },
                  stopDemand := 1, bypassDemand := g.view.active.bypass } }))))) ∧
    (r.payload = [0x02#8] → exec c s = .next
      (if s.mbc.mode = .config then reply .wrongMode 0 0 s.hears
      else if s.mbc.link = .silent then reply .linkLocked 0 0 s.hears
      else if g.guard = .armed then reply .wrongState 0 0 s.hears
      else if g.chain.s5 = .complete then reply .already 0 0 s.hears
      else match steps.find? notDone with
        | some x => reply .blocked 2 x.1 s.hears
        | none => reply .ok 0 0 (raise .turbStepDone 5 0
            { s.hears with tgd := { g with chain := { g.chain with s5 := .complete } } })))

/-- TGD at a snapshot: the counts, the causes that hold in code order, the chain, and one demand update of each valve for the
state it is in (R101, R102, R103, R105, R106); the STOP_VALVE demand of an ARMED guard is 1 (log 12); with no snapshot to process
nothing happens (log 4). -/
def Obligations.TgdSnapshotProcessed : Prop :=
  ∀ s : State, s.held = false →
    (s.todo.tgd = false → exec .tgdProcessSnapshot s = .next s) ∧
    (s.todo.tgd = true →
      let v := s.view
      let c := s.tgd.cfg
      let speed := v.chans[c.speed]
      let lube := v.chans[c.lube]
      let purity := v.chans[c.purity]
      let lubes := if lube.quality = .stale then s.tgd.lubeCount else if lube.value < c.lubeTrip then min 255 (s.tgd.lubeCount + 1) else 0
      let purities := if purity.quality = .stale then s.tgd.purityCount
        else if c.purityTrip < purity.value then min 255 (s.tgd.purityCount + 1) else 0
      let s1 : State := { s with
        todo := { s.todo with tgd := false }, tgd := { s.tgd with view := v, lubeCount := lubes, purityCount := purities } }
      let when1 := takeCauseIf (speed.quality = .stale ∨ c.tripSpeed ≤ speed.value) .overspeed (decide (speed.quality = .stale)) s1
      let when2 := takeCauseIf (lube.quality = .stale ∨ c.lubePersistence ≤ lubes) .lubeLow (decide (lube.quality = .stale)) when1
      let when3 := takeCauseIf (purity.quality = .stale ∨ c.purityPersistence ≤ purities) .purityHigh
        (decide (purity.quality = .stale)) when2
      let s2 := takeCauseIf (∃ ch, c.field = some ch ∧ v.chans[ch].quality ≠ .stale ∧ v.chans[ch].value = 1) .field false when3
      let s3 := tgdChain s2
      let stop := match s3.tgd.guard with
        | .armed => 1
        | .tripped => 0
      let bypass := match s3.tgd.guard with
        | .armed => v.active.bypass
        | .tripped => max v.active.bypass c.bypassPosition
      exec .tgdProcessSnapshot s = .next (deliver .bypassValve bypass (deliver .stopValve stop
        { s3 with tgd := { s3.tgd with stopDemand := stop, bypassDemand := bypass } })))

/-- The walk over the permissive chain (R108, R109, R110), and the expiry of a step's hold timer (R109). S1 requires the receiver
to be LOCKED (R108), with a snapshot published since it entered LOCKED (R111; log 38). A hold timer starts at the walk (log 36).
An expiry stands at its timer's end (log 3), and one of a step that is not TIMING has no effect (log 4). -/
def Obligations.ChainWalked : Prop :=
  (∀ s : State,
    let g := s.tgd
    let ch := g.view.chans
    let usable : Reading → Bool := fun r => decide (r.quality ≠ .stale)
    let met1 := decide (s.lif.rx = .locked) && s.lif.continuous && usable ch[g.cfg.speed] && usable ch[g.cfg.lube]
      && usable ch[g.cfg.purity] && usable ch[g.cfg.gear]
    let met2 := usable ch[g.cfg.lube] && decide (g.cfg.lubeRun ≤ ch[g.cfg.lube].value)
    let met3 := (usable ch[g.cfg.gear] && decide (ch[g.cfg.gear].value = 1)) ||
      (usable ch[g.cfg.speed] && decide (g.cfg.turningSpeed ≤ ch[g.cfg.speed].value))
    let met4 := usable ch[g.cfg.purity] && decide (ch[g.cfg.purity].value ≤ g.cfg.purityStart)
    let fails : StepState → Bool → Bool := fun st met => decide (st ≠ .incomplete) && !met
    let lost1 := fails g.chain.s1 met1
    let lost2 := lost1 || fails g.chain.s2 met2
    let lost3 := lost2 || fails g.chain.s3 met3
    let lost4 := lost3 || fails g.chain.s4 met4
    let next : Bool → Bool → Bool → Nat → StepState → StepState := fun lost before met hold st =>
      if lost then .incomplete
      else if st ≠ .incomplete then st
      else if met && before then (if hold = 0 then .complete else .timing ⟨s.now, hold * 1000000⟩)
      else .incomplete
    let done : StepState → Bool := fun st => decide (st = .complete)
    let n1 := next lost1 true met1 0 g.chain.s1
    let n2 := next lost2 (done n1) met2 g.cfg.lubeHoldS g.chain.s2
    let n3 := next lost3 (done n1 && done n2) met3 g.cfg.warmS g.chain.s3
    let n4 := next lost4 (done n1 && done n2 && done n3) met4 g.cfg.purityHoldS g.chain.s4
    let note : Int → Bool → Bool → StepState → StepState → List Report := fun k before lost st n =>
      if before then [] else if lost then [⟨.turbStepLost, k, if done st then 2 else 1⟩]
      else if done n && decide (st = .incomplete) then [⟨.turbStepDone, k, 0⟩] else []
    tgdChain s = raiseAll
      (note 1 false lost1 g.chain.s1 n1 ++ note 2 lost1 lost2 g.chain.s2 n2 ++ note 3 lost2 lost3 g.chain.s3 n3
        ++ note 4 lost3 lost4 g.chain.s4 n4)
      { s with tgd := { g with chain := ⟨n1, n2, n3, n4, if lost4 then .incomplete else g.chain.s5⟩ } }) ∧
  (∀ (s : State) (x : HoldStep), s.held = false →
    ((∀ t, s.tgd.chain.step x ≠ .timing t) → exec (.permissiveHoldExpiry x) s = .next s) ∧
    (∀ t, s.tgd.chain.step x = .timing t → ∃ chain : Chain,
      exec (.permissiveHoldExpiry x) s = .next (raise .turbStepDone (match x with | .s2 => 2 | .s3 => 3 | .s4 => 4) 0
        { s.reachEnd t with tgd := { s.tgd with chain := chain } }) ∧
      chain.s1 = s.tgd.chain.s1 ∧ chain.s5 = s.tgd.chain.s5 ∧
      ∀ y, chain.step y = if y = x then .complete else s.tgd.chain.step y))

/-! ## HXU -/

/-- HXU at a snapshot, and phases 1, 2 and 4: with the enable off it delivers 0; with it on the inputs are reported, the floor
is selected (R122, R123), the plan is computed or held (R124, R125, R126), and the valve demand is formed and, in a snapshot
published in SUPERVISE or LEAVING, delivered (R121, R127). The model's choices: the input reports come first, and the number of
the last snapshot moves with the enable off (log 18); the reports of one snapshot come in ascending input number (log 39); with
no snapshot to process nothing happens (log 4). -/
def Obligations.HeatPlanned : Prop :=
  (∀ s : State, s.held = false →
    let deliverHere : Int → State → State := fun d t =>
      if t.view.mode = .supervise ∨ t.view.mode = .leaving then deliver .heatValve d t else t
    let s1 : State := { s with todo := { s.todo with hxu := false }, hxu := { s.hxu with lastSnap := some s.view.number } }
    (s.todo.hxu = false → exec .hxuProcessSnapshot s = .next s) ∧
    (s.todo.hxu = true → s.hxu.cfg.enable = false → exec .hxuProcessSnapshot s = .next (deliverHere 0 s1)) ∧
    (s.todo.hxu = true → s.hxu.cfg.enable = true → exec .hxuProcessSnapshot s = .next
      (hxuDeficit (hxuMeter (hxuValve (hxuGuard (hxuPlan (hxuFloor ((List.finRange 7).foldl noteInput s1)))))))) ∧
    (let d := max 0 (min s.hxu.fig.plan s.view.active.heatCeiling - s.hxu.reduction);
      hxuValve s = deliverHere d { s with hxu := { s.hxu with fig := { s.hxu.fig with valve := d } } })) ∧
  (∀ (s : State) (i : Fin 7),
    let c := s.hxu.cfg
    let ch : ChannelNo := match i with
      | 0 => c.outdoor
      | 1 => c.districtReturn
      | 2 => c.districtSupply
      | 3 => c.districtFlow
      | 4 => c.brineInlet
      | 5 => c.brineOutlet
      | 6 => c.brineFlow
    let stale := decide (s.view.chans[ch].quality = .stale)
    noteInput s i = raiseIf (stale && !s.hxu.inputMarks[i]) .heatInputStale ch.val i.val
      { s with hxu := { s.hxu with inputMarks := s.hxu.inputMarks.set i stale } }) ∧
  (∀ s : State,
    let h := s.hxu
    (h.cfg.floorPoint = none → hxuFloor s =
      { s with hxu := { h with fig := { h.fig with source := .absolute, tFl := h.cfg.absFloor } } }) ∧
    (∀ p, h.cfg.floorPoint = some p →
      let r := s.view.points[p]
      let held := if r.validity = .held then min 255 (h.heldCount + 1) else 0
      let trusted := r.validity = .valid ∨ (r.validity = .held ∧ held ≤ h.cfg.floorHold)
      let t : State := { s with hxu := { h with heldCount := held, fig := { h.fig with
        source := if trusted then .point else .fallback
        tFl := max h.cfg.absFloor (if trusted then r.tFloor else h.cfg.fallFloor) } } }
      hxuFloor s =
        if trusted ∧ h.fig.source = .fallback then raise .heatFloorPoint p.val r.tFloor t
        else if ¬trusted ∧ h.fig.source = .point then raise .heatFloorFallback p.val h.cfg.fallFloor t
        else t)) ∧
  (∀ s : State,
    let h := s.hxu
    let value : ChannelNo → Int := fun c => s.view.chans[c].value
    let usable : ChannelNo → Prop := fun c => s.view.chans[c].quality ≠ .stale
    let all := usable h.cfg.outdoor ∧ usable h.cfg.districtReturn ∧ usable h.cfg.districtFlow ∧ usable h.cfg.brineInlet ∧
      usable h.cfg.brineFlow
    let sum := interpolate (value h.cfg.outdoor) h.curve + s.view.active.shift
    let tSp := if sum < h.cfg.setMin then h.cfg.setMin else if h.cfg.setMax < sum then h.cfg.setMax else sum
    let qReq := if value h.cfg.districtReturn < tSp then
      roundDiv (value h.cfg.districtFlow * h.cfg.cpD * (tSp - value h.cfg.districtReturn)) 100000 else 0
    let qAvail := if h.fig.tFl < value h.cfg.brineInlet then
      roundDiv (value h.cfg.brineFlow * h.cfg.cpB * (value h.cfg.brineInlet - h.fig.tFl)) 100000 else 0
    let qPlan := min qReq qAvail
    (all → hxuPlan s = { s with hxu := { h with planHeld := false, fig := { h.fig with
      tSp := tSp, qReq := qReq, qAvail := qAvail, qPlan := qPlan, plan := min (roundDiv (qPlan * 1000) h.cfg.qRated) 1000 } } }) ∧
    (¬all → hxuPlan s = { s with hxu := { h with planHeld := true } }))

/-- HXU's phases 3, 5 and 6: the outlet guard and its reduction (R128, R129), the delivered duty, the energy and its residue
(R130, R131), the deficit (R132). -/
def Obligations.HeatGuardedAndMetered : Prop :=
  (∀ s : State,
    let h := s.hxu
    let outlet := s.view.chans[h.cfg.brineOutlet]
    let usable := outlet.quality ≠ .stale
    let n := if outlet.value < h.fig.tFl - h.cfg.guardBand then min 255 (h.guardCount + 1) else 0
    let adjust : State → State := fun t =>
      let r := t.hxu.reduction
      if outlet.value < h.fig.tFl then { t with hxu := { t.hxu with reduction := min 1000 (r + h.cfg.guardStep) } }
      else if h.fig.tFl + h.cfg.guardBand ≤ outlet.value then
        if max 0 (r - h.cfg.guardStep) = 0 then
          raise .heatGuardOff 0 0 { t with hxu := { t.hxu with reduction := 0, engaged := false, guardCount := 0 } }
        else { t with hxu := { t.hxu with reduction := max 0 (r - h.cfg.guardStep) } }
      else t
    (¬usable → hxuGuard s = s) ∧
    (usable → h.engaged = true → hxuGuard s = adjust s) ∧
    (usable → h.engaged = false → n < h.cfg.guardPersistence → hxuGuard s = { s with hxu := { h with guardCount := n } }) ∧
    (usable → h.engaged = false → h.cfg.guardPersistence ≤ n →
      hxuGuard s = adjust (raise .heatGuardOn 0 outlet.value { s with hxu := { h with engaged := true, guardCount := 0 } }))) ∧
  (∀ s : State,
    let h := s.hxu
    let value : ChannelNo → Int := fun c => s.view.chans[c].value
    let usable : ChannelNo → Prop := fun c => s.view.chans[c].quality ≠ .stale
    let all := usable h.cfg.districtSupply ∧ usable h.cfg.districtReturn ∧ usable h.cfg.districtFlow
    let q := if value h.cfg.districtReturn < value h.cfg.districtSupply then
      roundDiv (value h.cfg.districtFlow * h.cfg.cpD * (value h.cfg.districtSupply - value h.cfg.districtReturn)) 100000 else 0
    let fig : HeatFigures := { h.fig with qDel := q }
    (¬all → hxuMeter s = s) ∧
    (all → s.view.interval = none → hxuMeter s = { s with hxu := { h with fig := fig } }) ∧
    (∀ us, all → s.view.interval = some us →
      let total := h.residue + q * us.toNat
      let counter := h.energy + (total / 3600000000).toNat
      hxuMeter s = { s with hxu := { h with
        fig := fig, residue := total % 3600000000, energy := min 4294967295 counter
        saturated := h.saturated || decide (4294967295 < counter) } }) ∧
    (let limited := decide (h.fig.qAvail < h.fig.qReq)
      let shortfall := h.fig.qReq - h.fig.qDel
      let short := decide (h.cfg.deficitKw < shortfall)
      let h1 := if h.deficit = true ∧ h.planHeld = false then { h with scalingLimited := limited } else h
      (h.planHeld = true ∨ ¬all → hxuDeficit s = { s with hxu := h1 }) ∧
      (h.planHeld = false → all → h.deficit = short → hxuDeficit s = { s with hxu := { h1 with deficitCount := 0 } }) ∧
      (h.planHeld = false → all → h.deficit ≠ short → h.deficitCount + 1 < h.cfg.deficitPersistence →
        hxuDeficit s = { s with hxu := { h1 with deficitCount := h.deficitCount + 1 } }) ∧
      (h.planHeld = false → all → h.deficit ≠ short → h.cfg.deficitPersistence ≤ h.deficitCount + 1 →
        hxuDeficit s = if h.deficit then
            raise .heatDeficitEnd 0 0 { s with hxu := { h with deficit := false, deficitCount := 0, scalingLimited := false } }
          else raise .heatDeficit (if limited then 1 else 0) shortfall
            { s with hxu := { h with deficit := true, deficitCount := 0, scalingLimited := limited } })))

/-- CLEAR_ENERGY returns and clears the counter (R131); SET_LAB makes its value pending (R137); ACK_ALARM clears the
unacknowledged flag (R150), with an empty payload where it is refused (log 9); the order of checks is log 10. -/
def Obligations.EnergyLabAndAlarmRequests : Prop :=
  ∀ (r : Request) (s : State), s.ready →
    (r.payload ≠ [] → exec (.clearEnergy r) s = .next (replied 0x19 r .badLength [] s.hears)) ∧
    (r.payload = [] → exec (.clearEnergy r) s = .next (replied 0x19 r .ok (put32 s.hxu.energy)
      (raise .heatEnergyCleared 0 s.hxu.energy { s.hears with hxu := { s.hxu with energy := 0, residue := 0, saturated := false } }))) ∧
    (r.payload.length ≠ 3 → exec (.setLab r) s = .next (replied 0x15 r .badLength [] s.hears)) ∧
    (∀ i a b : Byte, r.payload = [i, a, b] → 8 ≤ i.toNat → exec (.setLab r) s = .next (replied 0x15 r .badIndex [] s.hears)) ∧
    (∀ i a b : Byte, r.payload = [i, a, b] → ∀ h : i.toNat < 8,
      let n : PointNo := ⟨i.toNat, h⟩
      let v : Int := (a ++ b : BitVec 16).toNat
      exec (.setLab r) s = .next
        (if 4000 < v then replied 0x15 r .badValue [] s.hears
        else replied 0x15 r .ok [a, b] (raise .scaleLab n.val v
          { s.hears with scm := { s.scm with points := s.scm.points.set n { s.scm.points[n] with pendingLab := some v } } }))) ∧
    (r.payload.length ≠ 1 → exec (.ackAlarm r) s = .next (replied 0x16 r .badLength [] s.hears)) ∧
    (∀ i : Byte, r.payload = [i] → 8 ≤ i.toNat → exec (.ackAlarm r) s = .next (replied 0x16 r .badIndex [] s.hears)) ∧
    (∀ i : Byte, r.payload = [i] → ∀ h : i.toNat < 8,
      let n : PointNo := ⟨i.toNat, h⟩
      let p := s.scm.points[n]
      let code := put8 (match p.res.state with | .normal => 0 | .watch => 1 | .alarm => 2)
      exec (.ackAlarm r) s = .next
        (if p.cfg.inUse = false then replied 0x16 r .wrongState [] s.hears
        else if p.res.unack = false then replied 0x16 r .already code s.hears
        else replied 0x16 r .ok code
          { s.hears with scm := { s.scm with points := s.scm.points.set n { p with res := { p.res with unack := false } } } }))

/-! ## SCM -/

/-- Stages 2 to 5 of a point (R142, R143, R144, R145) with the rounding they use: the effective concentration, the solubility
read from the curve, the saturation index, and the lowest temperature at which the curve gives the required solubility. -/
def Obligations.PointArithmetic : Prop :=
  (∀ a b : Int, 0 < b →
    let q := roundDiv a b
    2 * |a - b * q| ≤ b ∧ (2 * |a - b * q| = b → |a| ≤ |b * q|)) ∧
  (∀ c cf : Int, effective c cf = roundDiv (c * cf) 1000 ∧ (0 ≤ c → c ≤ 65535 → 0 ≤ cf → cf ≤ 4000 → 0 ≤ effective c cf ∧
    effective c cf ≤ 262140)) ∧
  (∀ (p : CurvePoint) (rest : List CurvePoint) (t : Int), strictlyRising (p :: rest) = true →
    (t < p.x → interpolate t (p :: rest) = p.y) ∧
    (∀ q ∈ p :: rest, interpolate q.x (p :: rest) = q.y) ∧
    (((p :: rest).getLast (by simp)).x < t → interpolate t (p :: rest) = ((p :: rest).getLast (by simp)).y)) ∧
  (∀ (before after : List CurvePoint) (p q : CurvePoint) (t : Int),
    strictlyRising (before ++ p :: q :: after) = true → p.x < t → t < q.x →
      interpolate t (before ++ p :: q :: after) = p.y + roundDiv ((q.y - p.y) * (t - p.x)) (q.x - p.x) ∧
      min p.y q.y ≤ interpolate t (before ++ p :: q :: after) ∧ interpolate t (before ++ p :: q :: after) ≤ max p.y q.y) ∧
  (∀ cEff sol : Int, 0 ≤ cEff →
    (0 < sol → saturation cEff sol = min 65535 (roundDiv (cEff * 1000) sol)) ∧
    (sol = 0 → saturation cEff sol = 65535) ∧
    0 ≤ saturation cEff sol ∧ saturation cEff sol ≤ 65535) ∧
  (∀ cEff limit : Int, 0 < limit →
    (requiredSolubility cEff limit - 1) * limit < cEff * 1000 ∧ cEff * 1000 ≤ requiredSolubility cEff limit * limit) ∧
  (∀ (p : CurvePoint) (rest : List CurvePoint) (sReq : Int), strictlyRising (p :: rest) = true → notFalling (p :: rest) = true →
    let last := (p :: rest).getLast (by simp)
    let f := tempFloor sReq (p :: rest)
    (sReq ≤ p.y → f = (p.x, false)) ∧
    (last.y < sReq → f = (last.x, true)) ∧
    (∀ (before after : List CurvePoint) (u v : CurvePoint), p :: rest = before ++ u :: v :: after → p.y < sReq → u.y < sReq →
      sReq ≤ v.y → f.2 = false ∧ (f.1 - 1 - u.x) * (v.y - u.y) < (sReq - u.y) * (v.x - u.x) ∧
        (sReq - u.y) * (v.x - u.x) ≤ (f.1 - u.x) * (v.y - u.y)) ∧
    p.x ≤ f.1 ∧ f.1 ≤ last.x ∧
    (f.2 = false → sReq ≤ interpolate f.1 (p :: rest)))

/-- The state tests of a computed result (R148), and what entering and leaving ALARM does (R149). -/
def Obligations.AlarmStateMoved : Prop :=
  ∀ (c : PointRecord) (si : Int) (a : Alarm),
    let rising : Nat → Alarm := fun k =>
      let n := if c.alarm ≤ si then min 255 (k + 1) else 0
      if c.alarm ≤ si ∧ c.alarmPersistence ≤ n then ⟨.alarm, n, 0, true⟩
      else if si < c.warn - c.hysteresis then ⟨.normal, 0, a.clearCount, a.unack⟩
      else ⟨.watch, n, a.clearCount, a.unack⟩
    let n := if si < c.alarm - c.hysteresis then min 255 (a.clearCount + 1) else 0
    (a.state = .normal → si < c.warn → a.step c si = a) ∧
    (a.state = .normal → c.warn ≤ si → a.step c si = rising 0) ∧
    (a.state = .watch → a.step c si = rising a.alarmCount) ∧
    (a.state = .alarm → si < c.alarm - c.hysteresis → c.clearPersistence ≤ n → a.step c si = ⟨.watch, 0, n, a.unack⟩) ∧
    (a.state = .alarm → ¬(si < c.alarm - c.hysteresis ∧ c.clearPersistence ≤ n) → a.step c si = { a with clearCount := n }) ∧
    (∀ (was isNow : AlarmState) (p : PointNo), alarmReport was isNow p si =
      (if was ≠ .alarm ∧ isNow = .alarm then [⟨.scaleAlarm, p.val, si⟩]
      else if was = .alarm ∧ isNow ≠ .alarm then [⟨.scaleAlarmEnd, p.val, si⟩] else []))

/-- SCM at a snapshot: the plant concentration factor computed or held (R139, R140), then each point in use computed from good
inputs or held, with its events in order (R138, R141, R146, R147). With no snapshot to process nothing happens
(log 4). -/
def Obligations.ScmSnapshotProcessed : Prop :=
  (∀ s : State, s.held = false →
    (s.todo.scm = false → exec .scmProcessSnapshot s = .next s) ∧
    (s.todo.scm = true → exec .scmProcessSnapshot s = .next ((List.finRange 8).foldl processPoint
      (scmFactor { s with todo := { s.todo with scm := false }, scm := { s.scm with lastSnap := some s.view.number } })))) ∧
  (∀ s : State,
    let ch := s.view.chans
    let flows := s.wsv.wells.toList.map fun w =>
      if w.cfg.role = .production ∧ ch[w.cfg.flow].quality ≠ .stale then ch[w.cfg.flow].value else 0
    let brine := match s.wsv.plant.brine with
      | none => 0
      | some c => if ch[c].quality = .stale then 0 else ch[c].value
    let stale := ∃ c, s.wsv.plant.brine = some c ∧ ch[c].quality = .stale
    let m : Scm := { s.scm with fProd := flows.sum, fBrine := brine }
    let x := roundDiv (flows.sum * 1000) brine
    let cf := if x < 1000 then 1000 else if 4000 < x then 4000 else x
    (0 < brine → scmFactor s = raiseIf (decide (m.cfState = .held)) .scaleCfValid 0 cf
      { s with scm := { m with cf := cf, cfState := .valid, cfHeld := 0 } }) ∧
    (brine ≤ 0 → scmFactor s = match m.cfState with
      | .valid => raise .scaleCfHeld 0 (if stale then 1 else 2) { s with scm := { m with cfState := .held, cfHeld := 1 } }
      | .held => { s with scm := { m with cfHeld := min 255 (m.cfHeld + 1) } }
      | .none => { s with scm := m })) ∧
  (∀ (s : State) (i : PointNo),
    let p := s.scm.points[i]
    let temp := s.view.chans[p.cfg.temp]
    let silica : Option Int := if p.cfg.lab then p.labValue else match p.cfg.silica with
      | none => none
      | some c => if s.view.chans[c].quality = .stale then none else some s.view.chans[c].value
    let accepts := p.cfg.unity = true ∨ s.scm.cfState = .valid ∨ (s.scm.cfState = .held ∧ s.scm.cfHeld ≤ p.cfg.holdLimit)
    let put : Point → State := fun q => { s with scm := { s.scm with points := s.scm.points.set i q } }
    (p.cfg.inUse = false → processPoint s i = s) ∧
    (∀ c, p.cfg.inUse = true → temp.quality ≠ .stale → silica = some c → accepts →
      let cEff := effective c (if p.cfg.unity then 1000 else s.scm.cf)
      let curve := s.scm.curves[p.cfg.curve]
      let sol := interpolate temp.value curve
      let si := saturation cEff sol
      let sReq := requiredSolubility cEff p.cfg.limit
      let floor := tempFloor sReq curve
      let a := Alarm.step p.cfg si ⟨p.res.state, p.alarmCount, p.clearCount, p.res.unack⟩
      processPoint s i = raiseAll
        ((if p.res.validity = .held ∨ (p.res.validity = .invalid ∧ p.computed = true) then [⟨.scaleValid, i.val, si⟩] else [])
          ++ (if floor.2 = true ∧ ¬(p.computed = true ∧ p.res.unreachable = true) then [⟨.scaleFloorUnreachable, i.val, sReq⟩]
              else [])
          ++ alarmReport p.res.state a.state i si)
        (put { p with
          res := ⟨si, sol, cEff, floor.1, floor.2, .valid, a.state, a.unack, s.view.number⟩, heldCount := 0
          alarmCount := a.alarmCount, clearCount := a.clearCount, tUsed := temp.value, cUsed := c, computed := true })) ∧
    (p.cfg.inUse = true → ¬(temp.quality ≠ .stale ∧ silica ≠ none ∧ accepts) →
      let n := min 255 (p.heldCount + 1)
      let failed : Int := (if temp.quality = .stale then 1 else 0) + (if silica = none then 2 else 0) + (if accepts then 0 else 4)
      let kept := n ≤ p.cfg.holdLimit
      processPoint s i = match p.res.validity with
        | .invalid => put { p with heldCount := n }
        | .valid =>
          if kept then raise .scaleHeld i.val failed (put { p with heldCount := n, res := { p.res with validity := .held } })
          else put { p with heldCount := n, res := { p.res with validity := .invalid } }
        | .held =>
          if kept then put { p with heldCount := n, res := { p.res with validity := .held } }
          else raise .scaleInvalid i.val n (put { p with heldCount := n, res := { p.res with validity := .invalid } })))

/-! ## CAP -/

/-- CAPTURE_CMD: the table of R167, with the state and the write position in every reply (R167; log 9). -/
def Obligations.CaptureCommandTaken : Prop :=
  ∀ (r : Request) (s : State) (c : Instr), s.ready →
    c = .captureCmdStart r ∨ c = .captureCmdStop r ∨ c = .captureCmdRearm r →
    let reply : Status → Capture → State := fun st x =>
      replied 0x1C r st (put8 (match x.state with | .stopped => 0 | .running => 1 | .triggered => 2 | .frozen => 3) ++ put16 x.pos)
        { s.hears with cap := x }
    (r.payload.length ≠ 1 → exec c s = .next (reply .badLength s.cap)) ∧
    (∀ k : Byte, r.payload = [k] → 2 < k.toNat → exec c s = .next (reply .badValue s.cap)) ∧
    (r.payload = [0x00#8] → exec c s = .next
      (if s.cap.state = .stopped then reply .ok { s.cap with state := .running, pos := 0, dec := 0 } else reply .wrongState s.cap)) ∧
    (r.payload = [0x01#8] → exec c s = .next
      (if s.cap.state = .stopped then reply .already s.cap else reply .ok { s.cap with state := .stopped })) ∧
    (r.payload = [0x02#8] → exec c s = .next
      (if s.cap.state = .frozen then reply .ok { s.cap with state := .running, dec := 0 } else reply .wrongState s.cap))

/-- CAP at a snapshot: the marks, the trigger test against the marks as they stood, the decimation step, and a record written
whole with its notice and its place in the post count (R164, R165, R166). A post count of 0 freezes the ring at once (log 17);
where ANY is met by an alarm and a trip the subject is the point (log 32); HALF or WRAP comes before FROZEN (log 37); an alarm
entered before START or REARM that no view has shown yet triggers when a view first shows it (log 42); with no snapshot to process
nothing happens (log 4). -/
def Obligations.CapSnapshotProcessed : Prop :=
  (∀ s : State, s.held = false →
    let v := s.view
    let alarmed : PointNo → Prop := fun p => v.points[p].state = .alarm ∧ v.points[p].validity ≠ .invalid
    let marks : Capture := { s.cap with
      alarmMarks := Vector.ofFn fun p : PointNo => decide (alarmed p), lastTrips := v.tripCount }
    let s1 : State := { s with todo := { s.todo with cap := false }, cap := marks }
    let fresh : PointNo → Prop := fun p => alarmed p ∧ s.cap.alarmMarks[p] = false
    let trip := v.tripCount ≠ s.cap.lastTrips
    let hit : Int → State := fun subject =>
      let t := raise .captTriggered subject v.number.toNat { s1 with cap := { marks with state := .triggered, post := 0 } }
      if s.cap.cfg.postCount = 0 then raise .captFrozen 0 s.cap.pos { t with cap := { t.cap with state := .frozen } } else decimate t
    let onAlarm := s.cap.cfg.trigger = .scaleAlarm ∨ s.cap.cfg.trigger = .any
    let onTrip := s.cap.cfg.trigger = .turbineTrip ∨ s.cap.cfg.trigger = .any
    (s.todo.cap = false → exec .capProcessSnapshot s = .next s) ∧
    (s.todo.cap = true → s.cap.state = .stopped ∨ s.cap.state = .frozen → exec .capProcessSnapshot s = .next s1) ∧
    (s.todo.cap = true → s.cap.state = .triggered → exec .capProcessSnapshot s = .next (decimate s1)) ∧
    (∀ p, s.todo.cap = true → s.cap.state = .running → onAlarm → fresh p → (∀ q, q < p → ¬fresh q) →
      exec .capProcessSnapshot s = .next (hit p.val)) ∧
    (s.todo.cap = true → s.cap.state = .running → onTrip → trip → ¬(onAlarm ∧ ∃ p, fresh p) →
      exec .capProcessSnapshot s = .next (hit 0)) ∧
    (s.todo.cap = true → s.cap.state = .running → ¬(onAlarm ∧ ∃ p, fresh p) → ¬(onTrip ∧ trip) →
      exec .capProcessSnapshot s = .next (decimate s1))) ∧
  (∀ s : State,
    let c := s.cap
    let value : CaptureSource → Int := fun x => match x with
      | .channel n => s.view.chans[n].value
      | .si p => s.view.points[p].si
      | .floor p => s.view.points[p].tFloor
      | .pceil => s.view.ceiling
      | .heatdem => s.view.heat.valve
    let words : List Word := s.view.number :: c.cfg.sources.map fun x =>
      BitVec.ofInt 16 (if value x < -32768 then -32768 else if 32767 < value x then 32767 else value x)
    let stop := c.pos + words.length
    let pos := stop % 4096
    let t := (fun t => if 4096 ≤ stop then raise .captWrap 0 pos t
        else if c.pos < 2048 ∧ 2048 ≤ stop then raise .captHalf 0 pos t else t)
      { s with cap := { c with dec := 0, ring := c.ring.writeRecord c.pos words, pos := pos } }
    (c.dec + 1 < c.cfg.decimation → decimate s = { s with cap := { c with dec := c.dec + 1 } }) ∧
    (c.cfg.decimation ≤ c.dec + 1 → c.state ≠ .triggered → decimate s = t) ∧
    (c.cfg.decimation ≤ c.dec + 1 → c.state = .triggered → c.post + 1 < c.cfg.postCount →
      decimate s = { t with cap := { t.cap with post := c.post + 1 } }) ∧
    (c.cfg.decimation ≤ c.dec + 1 → c.state = .triggered → c.cfg.postCount ≤ c.post + 1 →
      decimate s = raise .captFrozen 0 pos { t with cap := { t.cap with post := c.post + 1, state := .frozen } }))

/-- A record written into the ring in its canonical form reads back from where it stands, word 4095 being followed by word 0, and
changes no other word (R164, R168). -/
def Obligations.RingReadsBack : Prop :=
  ∀ (m : Memory) (pos : Nat) (ws : List Word), m.wf = true → pos < 4096 → ws.length ≤ 4096 →
    (m.writeRecord pos ws).readRecord pos ws.length = ws ∧
    (∀ a, a < 4096 → (∀ k, k < ws.length → (pos + k) % 4096 ≠ a) → (m.writeRecord pos ws).read a = m.read a)

/-! ## The tables and the reads -/

/-- TABLE_WRITE: the checks of R175 in order, a refused write storing nothing; then for each of the sixteen tables when its record
is refused with BAD_VALUE and, byte by byte, what a taken write stores and changes beside it (R3, R22, R40, R66, R72, R73, R75,
R79, R80, R99, R119, R120, R135, R136, R154, R157, R160, R163). -/
def Obligations.TableWritten : Prop :=
  (∀ (r : Request) (s : State) (c : Instr), s.ready →
    c = .tableWrite r ∨ c = .tableWriteWell r ∨ c = .tableWriteClass r ∨ c = .tableWriteTiming r ∨ c = .tableWriteCapture r →
    (r.payload.length < 2 → exec c s = .next (replied 0x05 r .badLength [] s.hears)) ∧
    (∀ (t i : Byte) (b : List Byte), r.payload = t :: i :: b →
      let sizes : List (Option Nat) := [some 96, some 64, some 16, some 4, some 8, some 1, some 1, some 1, some 1, some 1, some 16,
        some 16, some 9, some 1, some 1, some 1]
      let lengths : List (Option Nat) := [some 19, some 9, some 29, none, some 15, none, some 36, some 41, some 15, some 6, some 1,
        some 1, some 1, some 54, some 9, none]
      let inRange := ∃ n, sizes[t.toNat]? = some (some n) ∧ i.toNat < n
      let wrong := ∃ n, lengths[t.toNat]? = some (some n) ∧ b.length ≠ n
      (¬inRange → exec c s = .next (replied 0x05 r .badIndex [] s.hears)) ∧
      (inRange → t.toNat ≤ 9 → s.mbc.mode ≠ .config → exec c s = .next (replied 0x05 r .wrongMode [] s.hears)) ∧
      (inRange → (9 < t.toNat ∨ s.mbc.mode = .config) → wrong → exec c s = .next (replied 0x05 r .badLength [] s.hears)) ∧
      (inRange → (9 < t.toNat ∨ s.mbc.mode = .config) → ¬wrong →
        ∃ ref, TableRef.find t.toNat i.toNat = some ref ∧
          exec c s = .next (replied 0x05 r (ref.store b s.hears).1 [] (ref.store b s.hears).2)))) ∧
  ((∀ i : Fin 96, TableRef.find 0 i.val = some (.channel i)) ∧ (∀ i : Fin 64, TableRef.find 1 i.val = some (.output i)) ∧
    (∀ i : Fin 16, TableRef.find 2 i.val = some (.well i)) ∧ (∀ i : Fin 4, TableRef.find 3 i.val = some (.curve i)) ∧
    (∀ i : Fin 8, TableRef.find 4 i.val = some (.point i)) ∧ TableRef.find 5 0 = some .heatCurve ∧
    TableRef.find 6 0 = some .heating ∧ TableRef.find 7 0 = some .turbine ∧ TableRef.find 8 0 = some .plant ∧
    TableRef.find 9 0 = some .loop ∧ (∀ i : Fin 16, TableRef.find 10 i.val = some (.permit i)) ∧
    (∀ i : Fin 16, TableRef.find 11 i.val = some (.hold i)) ∧ (∀ i : Fin 9, TableRef.find 12 i.val = some (.cls i)) ∧
    TableRef.find 13 0 = some .failsafe ∧ TableRef.find 14 0 = some .timing ∧ TableRef.find 15 0 = some .capture) ∧
  (∀ (ref : TableRef) (b : List Byte) (s : State),
    ((ref.store b s).1 ≠ .ok → (ref.store b s).2 = s) ∧
    ((ref.store b s).1 = .ok ∨ (ref.store b s).1 = .badValue ∨ (ref.store b s).1 = .badLength ∨ (ref.store b s).1 = .wrongState)) ∧
  (∀ (b : List Byte) (s : State),
    let byte : Nat → Byte := fun k => b.getD k 0
    let u : Nat → Int := fun k => (byte k).toNat
    let w : Nat → Int := fun k => 256 * u k + u (k + 1)
    let z : Nat → Int := fun k => if w k < 32768 then w k else w k - 65536
    let d : Nat → Int := fun k => 65536 * w k + w (k + 2)
    let e : Nat → Int := fun k => if d k < 2147483648 then d k else d k - 4294967296
    let channel : Nat → Prop := fun k => u k ≤ 95
    let maybeChannel : Nat → Prop := fun k => u k ≤ 95 ∨ u k = 255
    let maybePoint : Nat → Prop := fun k => u k ≤ 7 ∨ u k = 255
    let optional : {n : Nat} → Option (Fin n) → Int := fun x => match x with
      | none => 255
      | some i => i.val
    let temperature : Int → Prop := fun x => -2731 ≤ x ∧ x ≤ 20000
    (∀ i : ChannelNo,
      let low : Int := if u 3 = 0 then -2731 else 0
      let high : Int := [20000, 200000, 200000, 60000, 65535, 1000000, 1, 1000].getD (byte 3).toNat 0
      let ok := u 0 ≤ 3 ∧ u 1 ≤ 5 ∧ u 2 ≤ 27 ∧ u 3 ≤ 7 ∧ e 10 < e 14 ∧ low ≤ e 10 ∧ e 10 ≤ high ∧ low ≤ e 14 ∧ e 14 ≤ high ∧
        1 ≤ u 18
      (¬ok → (TableRef.channel i).store b s = (.badValue, s)) ∧
      (ok → ∃ c : ChannelRecord, (TableRef.channel i).store b s =
          (.ok, { s with acq := { s.acq with chans := s.acq.chans.set i { s.acq.chans[i] with cfg := c } } }) ∧
        c.inUse = (byte 0).getLsbD 0 ∧ c.signedRaw = (byte 0).getLsbD 1 ∧ c.pos.frame.val = u 1 ∧ c.pos.slot.val = u 2 ∧
        (match c.kind with
          | .temp => 0 | .press => 1 | .flow => 2 | .speed => 3 | .conc => 4 | .purity => 5 | .state => 6 | .level => 7) = u 3 ∧
        c.gain = z 4 ∧ c.offset = e 6 ∧ c.lo = e 10 ∧ c.hi = e 14 ∧ c.staleLimit = u 18)) ∧
    (∀ i : OutputNo,
      let ok := u 0 ≤ 1 ∧ u 1 ≤ 5 ∧ u 2 ≤ 27 ∧
        ((u 3 ≤ 1 ∧ u 4 ≤ 15) ∨ (2 ≤ u 3 ∧ u 3 ≤ 4 ∧ u 4 = 0) ∨ (u 3 = 5 ∧ u 4 ≤ 7)) ∧ 1 ≤ w 5 ∧ w 5 ≤ 1000 ∧
        w 7 ≤ (if u 3 = 0 then 1 else if u 3 = 4 then 0 else 1000)
      (¬ok → (TableRef.output i).store b s = (.badValue, s)) ∧
      (ok → ∃ c : OutputRecord, (TableRef.output i).store b s =
          (.ok, { s with out := { s.out with outs := s.out.outs.set i { s.out.outs[i] with cfg := c } } }) ∧
        c.inUse = decide (u 0 = 1) ∧ c.pos.frame.val = u 1 ∧ c.pos.slot.val = u 2 ∧
        (match c.source with
          | .wellRun x => ((0 : Int), (x.val : Int)) | .wellSpeed x => (1, x.val) | .heatValve => (2, 0) | .bypassValve => (3, 0)
          | .stopValve => (4, 0) | .direct x => (5, x.val)) = (u 3, u 4) ∧
        c.ramp = w 5 ∧ c.failSafe = w 7)) ∧
    (∀ i : WellNo,
      let ok := u 0 ≤ 2 ∧ channel 1 ∧ channel 2 ∧ maybeChannel 3 ∧ w 4 ≤ 1000 ∧ d 6 ≤ 200000 ∧ 1000 ≤ d 10 ∧ d 10 ≤ 600000 ∧
        d 14 ≤ 200000 ∧ 1 ≤ u 18 ∧ 2 ≤ u 19 ∧ u 19 ≤ 4 ∧ 1 ≤ w 20 ∧ w 20 ≤ 1440 ∧ d 22 ≤ 200000 ∧ maybePoint 26 ∧ w 27 ≤ 1000
      (¬ok → (TableRef.well i).store b s = (.badValue, s)) ∧
      (ok → ∃ c : WellRecord, (TableRef.well i).store b s =
          (.ok, { s with wsv := { s.wsv with wells := s.wsv.wells.set i { s.wsv.wells[i] with
            cfg := c, history := [], state := if u 0 = 0 then none else some .stopped } } }) ∧
        (match c.role with | .unused => 0 | .production => 1 | .reinjection => 2) = u 0 ∧ c.flow.val = u 1 ∧ c.intake.val = u 2 ∧
        optional c.motor = u 3 ∧ c.startSpeed = w 4 ∧ c.minFlow = d 6 ∧ c.startMs = d 10 ∧ c.intakeLimit = d 14 ∧
        c.intakePersistence = u 18 ∧ c.tripLimit = u 19 ∧ c.windowMin = w 20 ∧ c.rated = d 22 ∧ optional c.point = u 26 ∧
        c.derate = w 27)) ∧
    (∀ i : CurveNo,
      let n := (byte 0).toNat
      let ok := 2 ≤ n ∧ n ≤ 12 ∧ (∀ k, k < n → temperature (z (1 + 4 * k))) ∧
        (∀ k, k + 1 < n → z (1 + 4 * k) < z (5 + 4 * k) ∧ w (3 + 4 * k) ≤ w (7 + 4 * k))
      (b = [] ∨ b.length ≠ 1 + 4 * n → (TableRef.curve i).store b s = (.badLength, s)) ∧
      (b.length = 1 + 4 * n → ¬ok → (TableRef.curve i).store b s = (.badValue, s)) ∧
      (b.length = 1 + 4 * n → ok → (TableRef.curve i).store b s = (.ok, { s with scm := { s.scm with
        curves := s.scm.curves.set i ((List.range n).map fun k => ⟨z (1 + 4 * k), w (3 + 4 * k)⟩) } }))) ∧
    (∀ i : PointNo,
      let ok := u 0 ≤ 7 ∧ channel 1 ∧ maybeChannel 2 ∧ ((byte 0).getLsbD 1 = true ∨ u 2 ≠ 255) ∧ u 3 ≤ 3 ∧ 500 ≤ w 4 ∧ w 4 ≤ 5000 ∧
        500 ≤ w 6 ∧ w 6 ≤ 5000 ∧ w 4 ≤ w 6 ∧ 500 ≤ w 8 ∧ w 8 ≤ 5000 ∧ w 10 ≤ 500 ∧ 1 ≤ u 12 ∧ 1 ≤ u 13 ∧ 1 ≤ u 14
      (¬ok → (TableRef.point i).store b s = (.badValue, s)) ∧
      (ok → ∃ c : PointRecord, (TableRef.point i).store b s =
          (.ok, { s with scm := { s.scm with points := s.scm.points.set i { s.scm.points[i] with cfg := c } } }) ∧
        c.inUse = (byte 0).getLsbD 0 ∧ c.lab = (byte 0).getLsbD 1 ∧ c.unity = (byte 0).getLsbD 2 ∧ c.temp.val = u 1 ∧
        optional c.silica = u 2 ∧ c.curve.val = u 3 ∧ c.warn = w 4 ∧ c.alarm = w 6 ∧ c.limit = w 8 ∧ c.hysteresis = w 10 ∧
        c.alarmPersistence = u 12 ∧ c.clearPersistence = u 13 ∧ c.holdLimit = u 14)) ∧
    (let n := (byte 0).toNat
      let ok := 2 ≤ n ∧ n ≤ 8 ∧ (∀ k, k < n → temperature (z (1 + 4 * k)) ∧ temperature (z (3 + 4 * k))) ∧
        (∀ k, k + 1 < n → z (1 + 4 * k) < z (5 + 4 * k));
      (b = [] ∨ b.length ≠ 1 + 4 * n → TableRef.heatCurve.store b s = (.badLength, s)) ∧
      (b.length = 1 + 4 * n → ¬ok → TableRef.heatCurve.store b s = (.badValue, s)) ∧
      (b.length = 1 + 4 * n → ok → TableRef.heatCurve.store b s = (.ok, { s with hxu := { s.hxu with
        curve := (List.range n).map fun k => ⟨z (1 + 4 * k), z (3 + 4 * k)⟩ } }))) ∧
    (let ok := u 0 ≤ 1 ∧ (∀ k, 1 ≤ k → k ≤ 7 → channel k) ∧ 3000 ≤ w 8 ∧ w 8 ≤ 5000 ∧ 3000 ≤ w 10 ∧ w 10 ≤ 5000 ∧ 1 ≤ d 12 ∧
        d 12 ≤ 200000 ∧ temperature (z 16) ∧ temperature (z 18) ∧ z 16 ≤ z 18 ∧ temperature (z 20) ∧ temperature (z 22) ∧
        maybePoint 24 ∧ w 26 ≤ 500 ∧ 1 ≤ w 28 ∧ w 28 ≤ 1000 ∧ 1 ≤ u 30 ∧ d 31 ≤ 200000 ∧ 1 ≤ u 35;
      (¬ok → TableRef.heating.store b s = (.badValue, s)) ∧
      (ok → ∃ c : HeatingRecord, TableRef.heating.store b s = (.ok, { s with hxu := { s.hxu with cfg := c } }) ∧
        c.enable = decide (u 0 = 1) ∧ c.outdoor.val = u 1 ∧ c.districtReturn.val = u 2 ∧ c.districtSupply.val = u 3 ∧
        c.districtFlow.val = u 4 ∧ c.brineInlet.val = u 5 ∧ c.brineOutlet.val = u 6 ∧ c.brineFlow.val = u 7 ∧ c.cpD = w 8 ∧
        c.cpB = w 10 ∧ c.qRated = d 12 ∧ c.setMin = z 16 ∧ c.setMax = z 18 ∧ c.absFloor = z 20 ∧ c.fallFloor = z 22 ∧
        optional c.floorPoint = u 24 ∧ c.floorHold = u 25 ∧ c.guardBand = w 26 ∧ c.guardStep = w 28 ∧ c.guardPersistence = u 30 ∧
        c.deficitKw = d 31 ∧ c.deficitPersistence = u 35)) ∧
    (let ok := channel 0 ∧ 1 ≤ w 1 ∧ w 1 ≤ 60000 ∧ channel 3 ∧ d 4 ≤ 200000 ∧ 1 ≤ u 8 ∧ d 4 ≤ d 9 ∧ d 9 ≤ 200000 ∧ w 13 ≤ 600 ∧
        channel 15 ∧ d 16 ≤ 86400 ∧ w 20 ≤ 60000 ∧ channel 22 ∧ d 23 ≤ 1000000 ∧ 1 ≤ u 27 ∧ d 28 ≤ d 23 ∧ w 32 ≤ 3600 ∧
        maybeChannel 34 ∧ d 35 ≤ 200000 ∧ w 39 ≤ 1000;
      (¬ok → TableRef.turbine.store b s = (.badValue, s)) ∧
      (ok → ∃ c : TurbineRecord, TableRef.turbine.store b s = (.ok, { s with tgd := { s.tgd with cfg := c } }) ∧
        c.speed.val = u 0 ∧ c.tripSpeed = w 1 ∧ c.lube.val = u 3 ∧ c.lubeTrip = d 4 ∧ c.lubePersistence = u 8 ∧ c.lubeRun = d 9 ∧
        c.lubeHoldS = w 13 ∧ c.gear.val = u 15 ∧ c.warmS = d 16 ∧ c.turningSpeed = w 20 ∧ c.purity.val = u 22 ∧ c.purityTrip = d 23 ∧
        c.purityPersistence = u 27 ∧ c.purityStart = d 28 ∧ c.purityHoldS = w 32 ∧ optional c.field = u 34 ∧
        c.bypassCapacity = d 35 ∧ c.bypassPosition = w 39)) ∧
    (let ok := w 0 ≤ 1000 ∧ 1 ≤ w 2 ∧ w 2 ≤ 200 ∧ 1 ≤ w 4 ∧ w 4 ≤ 200 ∧ w 6 ≤ 500 ∧ u 8 ≤ 1 ∧ maybeChannel 9 ∧ maybeChannel 10 ∧
        d 11 ≤ 600000;
      (¬ok → TableRef.plant.store b s = (.badValue, s)) ∧
      (ok → ∃ c : PlantRecord, TableRef.plant.store b s = (.ok, { s with wsv := { s.wsv with plant := c } }) ∧
        c.ceilingMin = w 0 ∧ c.runback = w 2 ∧ c.recover = w 4 ∧ c.margin = w 6 ∧ c.check = decide (u 8 = 1) ∧
        optional c.brine = u 9 ∧ optional c.steam = u 10 ∧ c.staggerMs = d 11)) ∧
    (let ok := u 0 ≤ 3 ∧ u 1 ≤ 1 ∧ (u 2 = 3 ∨ u 2 = 4) ∧ (u 3 = 8 ∨ u 3 = 10) ∧ 100 ≤ w 4 ∧ w 4 ≤ 10000;
      (¬ok → TableRef.loop.store b s = (.badValue, s)) ∧
      (ok → ∃ c : LoopRecord, TableRef.loop.store b s = (.ok, { s with lif := { s.lif with cfg := c } }) ∧
        c.rate.val = u 0 ∧ c.autoRate = decide (u 1 = 1) ∧ c.lossCount = u 2 ∧ c.counterWidth = u 3 ∧ c.blindMs = w 4)) ∧
    (∀ i : WellNo,
      let set : Well → State := fun x => { s with wsv := { s.wsv with wells := s.wsv.wells.set i x } }
      (15 < u 0 → (TableRef.permit i).store b s = (.badValue, s)) ∧
      (u 0 ≤ 15 → (TableRef.permit i).store b s = (.ok, set { s.wsv.wells[i] with permit :=
        ⟨(byte 0).getLsbD 0, (byte 0).getLsbD 1, (byte 0).getLsbD 2, (byte 0).getLsbD 3⟩ })) ∧
      (1 < u 0 → (TableRef.hold i).store b s = (.badValue, s)) ∧
      (u 0 ≤ 1 → (TableRef.hold i).store b s = (.ok, set { s.wsv.wells[i] with hold := decide (u 0 = 1) }))) ∧
    (∀ i : Fin 9,
      let classes := s.evq.classes.set i { s.evq.classes[i] with log := (byte 0).getLsbD 0, attend := (byte 0).getLsbD 1 }
      (3 < u 0 → (TableRef.cls i).store b s = (.badValue, s)) ∧
      (u 0 ≤ 3 → (TableRef.cls i).store b s =
        (.ok, { s with evq := { s.evq with classes := classes, attnLow := attention s.evq.queue classes } }))) ∧
    (let ok := (∀ k, k < 27 → k ≠ 17 → w (2 * k) ≤ 1000) ∧ -200 ≤ z 34 ∧ z 34 ≤ 200;
      (¬ok → TableRef.failsafe.store b s = (.badValue, s)) ∧
      (ok → TableRef.failsafe.store b s = (.ok, { s with mbc := { s.mbc with failsafe :=
        { speeds := Vector.ofFn fun k => w (2 * k.val), heatCeiling := w 32, shift := z 34, bypass := w 36
          direct := Vector.ofFn fun k => w (38 + 2 * k.val) } } }))) ∧
    (let ok := 100 ≤ w 0 ∧ w 0 ≤ 60000 ∧ u 2 ≤ 2 ∧ 10 ≤ w 3 ∧ w 3 ≤ 600 ∧ d 5 ≤ 3600000;
      (¬ok → TableRef.timing.store b s = (.badValue, s)) ∧
      (ok → ∃ c : TimingRecord, TableRef.timing.store b s = (.ok, { s with
          mbc := { s.mbc with timing := c }
          clk := { s.clk with period := if c.resolution = s.mbc.timing.resolution then s.clk.period else s.now } }) ∧
        c.hostMs = w 0 ∧ (match c.resolution with | .ms1 => 0 | .ms10 => 1 | .ms100 => 2) = u 2 ∧ c.syncHoldS = w 3 ∧
        c.stepMs = d 5)) ∧
    (let n := (byte 0).toNat
      let source : Nat → Prop := fun k =>
        (u k = 0 ∧ channel (k + 1)) ∨ ((u k = 1 ∨ u k = 2) ∧ u (k + 1) ≤ 7) ∨ ((u k = 3 ∨ u k = 4) ∧ u (k + 1) = 0)
      let ok := 1 ≤ n ∧ n ≤ 16 ∧ 1 ≤ u 1 ∧ u 2 ≤ 3 ∧ ∀ k, k < n → source (4 + 2 * k);
      (b.length < 4 ∨ b.length ≠ 4 + 2 * n → TableRef.capture.store b s = (.badLength, s)) ∧
      (4 ≤ b.length → b.length = 4 + 2 * n → s.cap.state ≠ .stopped → TableRef.capture.store b s = (.wrongState, s)) ∧
      (4 ≤ b.length → b.length = 4 + 2 * n → s.cap.state = .stopped → ¬ok → TableRef.capture.store b s = (.badValue, s)) ∧
      (4 ≤ b.length → b.length = 4 + 2 * n → s.cap.state = .stopped → ok → ∃ c : CaptureRecord,
        TableRef.capture.store b s = (.ok, { s with cap := { s.cap with cfg := c } }) ∧ c.decimation = u 1 ∧
        (match c.trigger with | .none => 0 | .scaleAlarm => 1 | .turbineTrip => 2 | .any => 3) = u 2 ∧ c.postCount = u 3 ∧
        (c.sources.map fun x => match x with
          | .channel j => ((0 : Int), (j.val : Int)) | .si j => (1, j.val) | .floor j => (2, j.val) | .pceil => (3, 0)
          | .heatdem => (4, 0)) = (List.range n).map fun k => (u (4 + 2 * k), u (5 + 2 * k)))))

/-- A record that TABLE_WRITE has stored is returned byte for byte by TABLE_READ, at every index of every table; a CLASS entry
with its summary flag in bit 2 (R175, R157). No field is dropped. -/
def Obligations.RecordsReadBack : Prop :=
  ∀ (t i : Nat) (b : List Byte) (s u : State), writeTable t i b s = (.ok, u) →
    ∃ ref, TableRef.find t i = some ref ∧
      (t ≠ 12 → ref.load u = b) ∧
      (t = 12 → ∃ k : Fin 9, k.val = i ∧ ref.load u = b.map fun x => if s.evq.classes[k].summary then x ||| 0x04#8 else x)

/-- The reads change nothing but what every good frame changes: TABLE_READ, READ_BANK, READ_WELLS, READ_TURBINE, READ_OUTPUTS,
READ_CHANNELS, READ_SCALE, READ_HEAT and READ_CAPTURE, with their checks and, byte by byte, what they return (R35, R51, R65, R97,
R117, R133, R152, R168, R175). The order of checks (length, index, value) is log 10. -/
def Obligations.ReadsAnswered : Prop :=
  ∀ (r : Request) (s : State), s.ready →
    let left : Option Timer → Int := fun x => match x with
      | none => 0
      | some t => ((t.duration - elapsed t.start s.now + 999) / 1000 : Nat)
    let index : {n : Nat} → Option (Fin n) → List Byte := fun x => match x with
      | none => [0xFF#8]
      | some i => put8 i.val
    let well : Well → List Byte := fun w =>
      put8 (match w.cfg.role with | .unused => 0 | .production => 1 | .reinjection => 2)
        ++ put8 (match w.state with
          | none => 0 | some .outOfService => 1 | some .stopped => 2 | some .startPending => 3 | some .starting => 4
          | some .running => 5 | some .tripped => 6 | some .lockedOut => 7)
        ++ put8 (flagByte [w.hold, w.permit.start, w.permit.clear, w.permit.serviceOut, w.permit.serviceIn])
        ++ put8 (match w.lastTrip with | none => 0 | some .startFail => 1 | some .lowIntake => 2 | some .motor => 3)
        ++ put8 w.history.length ++ put8 w.intakeCount ++ put16 w.speedDemand ++ put8 w.runDemand
        ++ put8 (flagByte [w.flowBlind, w.intakeBlind, w.motorBlind]) ++ put32 (left w.startTimer)
    let wells : List Byte :=
      let v := s.wsv
      put16 v.ceiling ++ put8 (match v.result with | .hold => 0 | .deficit => 1 | .surplus => 2 | .held => 3 | .notComputed => 4)
        ++ put8 (flagByte [v.deficit, decide (v.view.cap ≠ none), decide (v.stagger ≠ none)]) ++ put32 v.capacity
        ++ put32 v.threshold ++ put32 (left v.stagger) ++ index v.slot ++ put8 v.queue.length
        ++ (List.range 16).flatMap (fun k => index v.queue[k]?)
    let output : Output → List Byte := fun o =>
      let drives := s.mbc.mode = .supervise ∨ s.mbc.mode = .leaving
      let code : Word := if o.cfg.inUse = false ∨ o.outOfService = true ∨ ¬drives then 0x8000#16
        else BitVec.ofInt 16 (if s.out.failSafe then o.cfg.failSafe else o.issued)
      put16 (if o.cfg.inUse then o.demand else 0) ++ put16 (if o.cfg.inUse then o.issued else 0) ++ put16 code.toNat
        ++ put8 (flagByte [o.cfg.inUse, o.outOfService, match o.cfg.source with | .wellRun _ | .stopValve => true | _ => false,
          o.cfg.inUse && o.rise])
        ++ put8 (match o.cfg.source with
          | .wellRun x => x.val | .wellSpeed x => 16 + x.val | .heatValve => 32 | .bypassValve => 48 | .stopValve => 64
          | .direct x => 80 + x.val)
    let scale : List Byte :=
      let m := s.scm
      put16 m.cf ++ put8 (match m.cfState with | .valid => 0 | .held => 1 | .none => 2) ++ put8 m.cfHeld ++ put32 m.fProd
        ++ put32 m.fBrine ++ put16 (match m.lastSnap with | none => 0 | some x => x.toNat)
    let point : Point → List Byte := fun p =>
      put8 (flagByte [p.cfg.inUse, p.cfg.lab, p.cfg.unity, p.res.unreachable, p.res.unack, decide (p.pendingLab ≠ none)])
        ++ put8 (match p.res.validity with | .valid => 0 | .held => 1 | .invalid => 2)
        ++ put8 (match p.res.state with | .normal => 0 | .watch => 1 | .alarm => 2)
        ++ put8 p.heldCount ++ put8 p.alarmCount ++ put8 p.clearCount ++ put16 p.res.si ++ put16 p.res.s ++ put32 p.res.cEff
        ++ put16 p.res.tFloor ++ put16 p.tUsed ++ put16 p.cUsed
        ++ put16 (match p.labValue with | none => 0xFFFF | some v => v) ++ put16 p.res.number.toNat
    let turbine : List Byte :=
      let g := s.tgd
      let causes : List Cause := [.overspeed, .lubeLow, .purityHigh, .field, .blind, .hostTrip, .restarted]
      let step : StepState → List Byte := fun x => put8 (match x with | .incomplete => 0 | .timing _ => 1 | .complete => 2)
      let hold : StepState → List Byte := fun x => put32 (match x with | .timing t => left (some t) | _ => 0)
      put8 (match g.guard with | .armed => 0 | .tripped => 1)
        ++ put8 (match g.first with
          | none => 0 | some .overspeed => 1 | some .lubeLow => 2 | some .purityHigh => 3 | some .field => 4 | some .blind => 5
          | some .hostTrip => 6 | some .restarted => 7)
        ++ put8 (flagByte (causes.map fun c => decide (c ∈ g.causes))) ++ put8 (flagByte (causes.map (g.activeNow s.lif.blind)))
        ++ [g.tripStamp.extractLsb' 40 8, g.tripStamp.extractLsb' 32 8, g.tripStamp.extractLsb' 24 8, g.tripStamp.extractLsb' 16 8,
          g.tripStamp.extractLsb' 8 8, g.tripStamp.extractLsb' 0 8]
        ++ put16 g.tripCount.toNat
        ++ (match g.cap with
          | none => [0x00#8, 0x00#8, 0x00#8]
          | some x => put8 (if x.stale then 3 else 1) ++ put16 x.value)
        ++ step g.chain.s1 ++ step g.chain.s2 ++ step g.chain.s3 ++ step g.chain.s4 ++ step g.chain.s5
        ++ hold g.chain.s2 ++ hold g.chain.s3 ++ hold g.chain.s4 ++ put8 g.lubeCount ++ put8 g.purityCount ++ put8 g.stopDemand
        ++ put16 g.bypassDemand
    let heat : List Byte :=
      let h := s.hxu
      put8 (flagByte [h.cfg.enable, h.planHeld, h.engaged, h.deficit, h.scalingLimited, h.saturated])
        ++ put8 (match h.fig.source with | .point => 0 | .fallback => 1 | .absolute => 2) ++ put16 h.fig.tSp ++ put16 h.fig.tFl
        ++ put32 h.fig.qReq ++ put32 h.fig.qAvail ++ put32 h.fig.qPlan ++ put16 h.fig.plan ++ put16 h.reduction
        ++ put16 h.fig.valve ++ put32 h.fig.qDel ++ put32 h.energy ++ put32 h.residue ++ put8 h.guardCount ++ put8 h.deficitCount
        ++ put8 h.heldCount ++ put16 (match h.lastSnap with | none => 0 | some x => x.toNat)
    let two : Byte → Instr → Nat → Nat → (Byte → Byte → List Byte) → Prop := fun kind c size most bytes =>
      (r.payload.length ≠ 2 → exec c s = .next (replied kind r .badLength [] s.hears)) ∧
      (∀ f n : Byte, r.payload = [f, n] →
        (size ≤ f.toNat ∨ size < f.toNat + n.toNat → exec c s = .next (replied kind r .badIndex [] s.hears)) ∧
        (f.toNat < size → f.toNat + n.toNat ≤ size → n = 0 ∨ most < n.toNat →
          exec c s = .next (replied kind r .badValue [] s.hears)) ∧
        (f.toNat < size → f.toNat + n.toNat ≤ size → 1 ≤ n.toNat → n.toNat ≤ most →
          exec c s = .next (replied kind r .ok (bytes f n) s.hears)))
    two 0x0C (.readWells r) 16 8 (fun f n => wells ++ [f, n] ++ ((s.wsv.wells.toList.drop f.toNat).take n.toNat).flatMap well) ∧
    two 0x10 (.readOutputs r) 64 16 (fun f n => [f, n] ++ put8 (flagByte [s.lif.blind, s.out.failSafe])
      ++ ((s.out.outs.toList.drop f.toNat).take n.toNat).flatMap output) ∧
    two 0x17 (.readScale r) 8 8 (fun f n => scale ++ [f, n] ++ ((s.scm.points.toList.drop f.toNat).take n.toNat).flatMap point) ∧
    wells.length = 34 ∧ (∀ w, (well w).length = 14) ∧ (∀ o, (output o).length = 8) ∧ scale.length = 14 ∧
    (∀ p, (point p).length = 24) ∧
    (r.payload ≠ [] → exec (.readTurbine r) s = .next (replied 0x0E r .badLength [] s.hears) ∧
      exec (.readHeat r) s = .next (replied 0x18 r .badLength [] s.hears)) ∧
    (r.payload = [] → exec (.readTurbine r) s = .next (replied 0x0E r .ok turbine s.hears) ∧
      exec (.readHeat r) s = .next (replied 0x18 r .ok heat s.hears) ∧ turbine.length = 37 ∧ heat.length = 41) ∧
    (r.payload.length ≠ 3 → exec (.readChannels r) s = .next (replied 0x14 r .badLength [] s.hears) ∧
      exec (.readCapture r) s = .next (replied 0x1D r .badLength [] s.hears)) ∧
    (∀ f n v : Byte, r.payload = [f, n, v] →
      exec (.readChannels r) s = .next
        (if 96 ≤ f.toNat ∨ 96 < f.toNat + n.toNat then replied 0x14 r .badIndex [] s.hears
        else if n = 0 ∨ 32 < n.toNat ∨ 1 < v.toNat then replied 0x14 r .badValue [] s.hears
        else replied 0x14 r .ok (put16 s.acq.number.toNat ++ [f, n]
          ++ ((s.acq.chans.toList.drop f.toNat).take n.toNat).flatMap fun c =>
            if v = 0 then put32 c.value
                ++ put8 ((match c.quality with | .good => 0 | .clamped => 1 | .held => 2 | .stale => 3 | .forced => 4)
                  + (if c.force = none then 0 else 8) + (if c.pendingTrim = none then 0 else 16)
                  + (if c.cfg.inUse then 32 else 0)) ++ put8 c.age
            else put16 c.lastRaw.toNat ++ put16 c.trim) s.hears)) ∧
    (∀ a b n : Byte, r.payload = [a, b, n] →
      let off := (a ++ b : BitVec 16).toNat
      exec (.readCapture r) s = .next
        (if 4095 < off then replied 0x1D r .badIndex [] s.hears
        else if n = 0 ∨ 100 < n.toNat then replied 0x1D r .badValue [] s.hears
        else replied 0x1D r .ok (put8 (match s.cap.state with | .stopped => 0 | .running => 1 | .triggered => 2 | .frozen => 3)
          ++ put16 s.cap.pos ++ [a, b, n]
          ++ (List.range n.toNat).flatMap fun k => put16 (s.cap.ring.read ((off + k) % 4096)).toNat) s.hears)) ∧
    (r.payload.length ≠ 1 → exec (.readBank r) s = .next (replied 0x09 r .badLength [] s.hears)) ∧
    (∀ k : Byte, r.payload = [k] →
      let tail : Bank → List Byte := fun bank =>
        put8 (match s.mbc.mode with | .config => 0 | .standby => 1 | .supervise => 2 | .leaving => 3)
        ++ put8 ((if s.mbc.link = .silent then 1 else 0) + (if s.mbc.pubBank = none then 0 else 2)
          + (if s.hears.mbc.hostTimer = none then 0 else 4))
        ++ bank.speeds.toList.flatMap put16 ++ put16 bank.heatCeiling ++ put16 bank.shift ++ put16 bank.bypass
        ++ bank.direct.toList.flatMap put16
      exec (.readBank r) s = .next (match k.toNat with
        | 0 => replied 0x09 r .ok ([k, 4, 0, 0] ++ tail s.mbc.staging) s.hears
        | 1 => replied 0x09 r .ok (match s.mbc.pubBank with
          | none => [k, 3, 0, 0] ++ tail ⟨Vector.replicate 16 0, 0, 0, 0, Vector.replicate 8 0⟩
          | some p => [k, 1] ++ put16 p.count.toNat ++ tail p.bank) s.hears
        | 2 => replied 0x09 r .ok ((match s.mbc.origin with
          | .default => [k, 0, 0, 0]
          | .published n => [k, 1] ++ put16 n.toNat
          | .failsafe => [k, 2, 0, 0]) ++ tail s.mbc.active) s.hears
        | 3 => replied 0x09 r .ok ([k, 4, 0, 0] ++ tail s.mbc.failsafe) s.hears
        | _ => replied 0x09 r .badIndex [] s.hears)) ∧
    (∀ bank : Bank, bank.bytes.length = 54) ∧
    (r.payload.length ≠ 2 → exec (.tableRead r) s = .next (replied 0x06 r .badLength [] s.hears)) ∧
    (∀ t i : Byte, r.payload = [t, i] → exec (.tableRead r) s = .next (match TableRef.find t.toNat i.toNat with
      | none => replied 0x06 r .badIndex [] s.hears
      | some ref => replied 0x06 r .ok ([t, i] ++ ref.load s) s.hears))

/-! ## Invariants that every step keeps -/

/-- The event queue holds at most 64 entries, and the attention line is as R160 gives it (R158, R160). -/
def Obligations.QueueInvKept : Prop := ∀ s t : State, QueueInv s → step s = .next t → QueueInv t

/-- The capture ring keeps its canonical form within its 4096 words, and the write position stays in it (R163, R164). -/
def Obligations.RingInvKept : Prop := ∀ s t : State, RingInv s → step s = .next t → RingInv t

/-- The residue stays below one kilowatt-hour and the energy counter within 32 bits (R130, R131). -/
def Obligations.EnergyInvKept : Prop := ∀ s t : State, EnergyInv s → step s = .next t → EnergyInv t

/-- The COMPLETE steps of the permissive chain form an unbroken run from S1 (R109). -/
def Obligations.ChainInvKept : Prop := ∀ s t : State, ChainInv s → step s = .next t → ChainInv t

/-- Every well in START_PENDING stands in the start queue exactly once, no other well does, and the slot holds exactly the
STARTING well (R85). -/
def Obligations.StartInvKept : Prop := ∀ s t : State, StartInv s → step s = .next t → StartInv t

/-- The production ceiling lies between the ceiling minimum and 1000 (R96). -/
def Obligations.CeilingInvKept : Prop := ∀ s t : State, CeilingInv s → step s = .next t → CeilingInv t

/-- While the turbine guard is TRIPPED, the stop valve's issued value is 0 (R105). -/
def Obligations.StopValveInvKept : Prop := ∀ s t : State, StopValveInv s → step s = .next t → StopValveInv t

/-- Reset satisfies every invariant, for every strap code. -/
def Obligations.InvariantsAtReset : Prop :=
  ∀ straps : BitVec 2, let s := State.powerOn straps
    QueueInv s ∧ RingInv s ∧ EnergyInv s ∧ ChainInv s ∧ StartInv s ∧ CeilingInv s ∧ StopValveInv s

end
end

