-- ==== Sys2Proof/Laws/State.lean ====
section
/-! SUPPORT. One lemma per field per update: what the shared updates of State leave as it was. -/

namespace Sys2Proof.Machine

section raise

variable (k : EventKind) (a b : Int) (s : State)

@[simp] theorem raise_held : (raise k a b s).held = s.held := rfl
@[simp] theorem raise_now : (raise k a b s).now = s.now := rfl
@[simp] theorem raise_straps : (raise k a b s).straps = s.straps := rfl
@[simp] theorem raise_lif : (raise k a b s).lif = s.lif := rfl
@[simp] theorem raise_acq : (raise k a b s).acq = s.acq := rfl
@[simp] theorem raise_out : (raise k a b s).out = s.out := rfl
@[simp] theorem raise_mbc : (raise k a b s).mbc = s.mbc := rfl
@[simp] theorem raise_wsv : (raise k a b s).wsv = s.wsv := rfl
@[simp] theorem raise_tgd : (raise k a b s).tgd = s.tgd := rfl
@[simp] theorem raise_hxu : (raise k a b s).hxu = s.hxu := rfl
@[simp] theorem raise_scm : (raise k a b s).scm = s.scm := rfl
@[simp] theorem raise_clk : (raise k a b s).clk = s.clk := rfl
@[simp] theorem raise_cap : (raise k a b s).cap = s.cap := rfl
@[simp] theorem raise_cpt : (raise k a b s).cpt = s.cpt := rfl
@[simp] theorem raise_view : (raise k a b s).view = s.view := rfl
@[simp] theorem raise_todo : (raise k a b s).todo = s.todo := rfl
@[simp] theorem raise_free : (raise k a b s).free = s.free := rfl
@[simp] theorem raise_pending : (raise k a b s).pending = s.pending := rfl

end raise

section raiseIf

variable (c : Bool) (k : EventKind) (a b : Int) (s : State)

@[simp] theorem raiseIf_held : (raiseIf c k a b s).held = s.held := by cases c <;> rfl
@[simp] theorem raiseIf_now : (raiseIf c k a b s).now = s.now := by cases c <;> rfl
@[simp] theorem raiseIf_straps : (raiseIf c k a b s).straps = s.straps := by cases c <;> rfl
@[simp] theorem raiseIf_lif : (raiseIf c k a b s).lif = s.lif := by cases c <;> rfl
@[simp] theorem raiseIf_acq : (raiseIf c k a b s).acq = s.acq := by cases c <;> rfl
@[simp] theorem raiseIf_out : (raiseIf c k a b s).out = s.out := by cases c <;> rfl
@[simp] theorem raiseIf_mbc : (raiseIf c k a b s).mbc = s.mbc := by cases c <;> rfl
@[simp] theorem raiseIf_wsv : (raiseIf c k a b s).wsv = s.wsv := by cases c <;> rfl
@[simp] theorem raiseIf_tgd : (raiseIf c k a b s).tgd = s.tgd := by cases c <;> rfl
@[simp] theorem raiseIf_hxu : (raiseIf c k a b s).hxu = s.hxu := by cases c <;> rfl
@[simp] theorem raiseIf_scm : (raiseIf c k a b s).scm = s.scm := by cases c <;> rfl
@[simp] theorem raiseIf_clk : (raiseIf c k a b s).clk = s.clk := by cases c <;> rfl
@[simp] theorem raiseIf_cap : (raiseIf c k a b s).cap = s.cap := by cases c <;> rfl
@[simp] theorem raiseIf_cpt : (raiseIf c k a b s).cpt = s.cpt := by cases c <;> rfl
@[simp] theorem raiseIf_view : (raiseIf c k a b s).view = s.view := by cases c <;> rfl
@[simp] theorem raiseIf_todo : (raiseIf c k a b s).todo = s.todo := by cases c <;> rfl
@[simp] theorem raiseIf_free : (raiseIf c k a b s).free = s.free := by cases c <;> rfl
@[simp] theorem raiseIf_pending : (raiseIf c k a b s).pending = s.pending := by cases c <;> rfl

end raiseIf

/-- A fold keeps what each of its steps keeps. -/
theorem foldl_keeps {α β : Type} (p : State → β) (f : State → α → State) (h : ∀ s a, p (f s a) = p s) (l : List α) (s : State) :
    p (l.foldl f s) = p s := by
  induction l generalizing s with
  | nil => rfl
  | cons a l ih => exact (ih (f s a)).trans (h s a)

section raiseAll

variable (es : List Report) (s : State)

@[simp] theorem raiseAll_held : (raiseAll es s).held = s.held := foldl_keeps (·.held) raiseOne (fun _ _ => rfl) es s
@[simp] theorem raiseAll_now : (raiseAll es s).now = s.now := foldl_keeps (·.now) raiseOne (fun _ _ => rfl) es s
@[simp] theorem raiseAll_straps : (raiseAll es s).straps = s.straps := foldl_keeps (·.straps) raiseOne (fun _ _ => rfl) es s
@[simp] theorem raiseAll_lif : (raiseAll es s).lif = s.lif := foldl_keeps (·.lif) raiseOne (fun _ _ => rfl) es s
@[simp] theorem raiseAll_acq : (raiseAll es s).acq = s.acq := foldl_keeps (·.acq) raiseOne (fun _ _ => rfl) es s
@[simp] theorem raiseAll_out : (raiseAll es s).out = s.out := foldl_keeps (·.out) raiseOne (fun _ _ => rfl) es s
@[simp] theorem raiseAll_mbc : (raiseAll es s).mbc = s.mbc := foldl_keeps (·.mbc) raiseOne (fun _ _ => rfl) es s
@[simp] theorem raiseAll_wsv : (raiseAll es s).wsv = s.wsv := foldl_keeps (·.wsv) raiseOne (fun _ _ => rfl) es s
@[simp] theorem raiseAll_tgd : (raiseAll es s).tgd = s.tgd := foldl_keeps (·.tgd) raiseOne (fun _ _ => rfl) es s
@[simp] theorem raiseAll_hxu : (raiseAll es s).hxu = s.hxu := foldl_keeps (·.hxu) raiseOne (fun _ _ => rfl) es s
@[simp] theorem raiseAll_scm : (raiseAll es s).scm = s.scm := foldl_keeps (·.scm) raiseOne (fun _ _ => rfl) es s
@[simp] theorem raiseAll_clk : (raiseAll es s).clk = s.clk := foldl_keeps (·.clk) raiseOne (fun _ _ => rfl) es s
@[simp] theorem raiseAll_cap : (raiseAll es s).cap = s.cap := foldl_keeps (·.cap) raiseOne (fun _ _ => rfl) es s
@[simp] theorem raiseAll_cpt : (raiseAll es s).cpt = s.cpt := foldl_keeps (·.cpt) raiseOne (fun _ _ => rfl) es s
@[simp] theorem raiseAll_view : (raiseAll es s).view = s.view := foldl_keeps (·.view) raiseOne (fun _ _ => rfl) es s
@[simp] theorem raiseAll_todo : (raiseAll es s).todo = s.todo := foldl_keeps (·.todo) raiseOne (fun _ _ => rfl) es s
@[simp] theorem raiseAll_free : (raiseAll es s).free = s.free := foldl_keeps (·.free) raiseOne (fun _ _ => rfl) es s
@[simp] theorem raiseAll_pending : (raiseAll es s).pending = s.pending := foldl_keeps (·.pending) raiseOne (fun _ _ => rfl) es s

end raiseAll

section deliver

variable (src : Source) (v : Int) (s : State)

@[simp] theorem deliver_held : (deliver src v s).held = s.held := rfl
@[simp] theorem deliver_now : (deliver src v s).now = s.now := rfl
@[simp] theorem deliver_straps : (deliver src v s).straps = s.straps := rfl
@[simp] theorem deliver_lif : (deliver src v s).lif = s.lif := rfl
@[simp] theorem deliver_acq : (deliver src v s).acq = s.acq := rfl
@[simp] theorem deliver_mbc : (deliver src v s).mbc = s.mbc := rfl
@[simp] theorem deliver_wsv : (deliver src v s).wsv = s.wsv := rfl
@[simp] theorem deliver_tgd : (deliver src v s).tgd = s.tgd := rfl
@[simp] theorem deliver_hxu : (deliver src v s).hxu = s.hxu := rfl
@[simp] theorem deliver_scm : (deliver src v s).scm = s.scm := rfl
@[simp] theorem deliver_clk : (deliver src v s).clk = s.clk := rfl
@[simp] theorem deliver_evq : (deliver src v s).evq = s.evq := rfl
@[simp] theorem deliver_cap : (deliver src v s).cap = s.cap := rfl
@[simp] theorem deliver_cpt : (deliver src v s).cpt = s.cpt := rfl
@[simp] theorem deliver_view : (deliver src v s).view = s.view := rfl
@[simp] theorem deliver_todo : (deliver src v s).todo = s.todo := rfl
@[simp] theorem deliver_free : (deliver src v s).free = s.free := rfl
@[simp] theorem deliver_pending : (deliver src v s).pending = s.pending := rfl

end deliver

section setWell

variable (i : WellNo) (w : Well) (s : State)

@[simp] theorem setWell_held : (s.setWell i w).held = s.held := rfl
@[simp] theorem setWell_now : (s.setWell i w).now = s.now := rfl
@[simp] theorem setWell_straps : (s.setWell i w).straps = s.straps := rfl
@[simp] theorem setWell_lif : (s.setWell i w).lif = s.lif := rfl
@[simp] theorem setWell_acq : (s.setWell i w).acq = s.acq := rfl
@[simp] theorem setWell_out : (s.setWell i w).out = s.out := rfl
@[simp] theorem setWell_mbc : (s.setWell i w).mbc = s.mbc := rfl
@[simp] theorem setWell_tgd : (s.setWell i w).tgd = s.tgd := rfl
@[simp] theorem setWell_hxu : (s.setWell i w).hxu = s.hxu := rfl
@[simp] theorem setWell_scm : (s.setWell i w).scm = s.scm := rfl
@[simp] theorem setWell_clk : (s.setWell i w).clk = s.clk := rfl
@[simp] theorem setWell_evq : (s.setWell i w).evq = s.evq := rfl
@[simp] theorem setWell_cap : (s.setWell i w).cap = s.cap := rfl
@[simp] theorem setWell_cpt : (s.setWell i w).cpt = s.cpt := rfl
@[simp] theorem setWell_view : (s.setWell i w).view = s.view := rfl
@[simp] theorem setWell_todo : (s.setWell i w).todo = s.todo := rfl
@[simp] theorem setWell_free : (s.setWell i w).free = s.free := rfl
@[simp] theorem setWell_pending : (s.setWell i w).pending = s.pending := rfl

end setWell

section watch

variable (l : Lif) (f : LoopFrame) (now : Time)

@[simp] theorem watch_cfg : (l.watch f now).cfg = l.cfg := rfl
@[simp] theorem watch_rx : (l.watch f now).rx = l.rx := rfl
@[simp] theorem watch_selected : (l.watch f now).selected = l.selected := rfl
@[simp] theorem watch_trial : (l.watch f now).trial = l.trial := rfl
@[simp] theorem watch_hunt : (l.watch f now).hunt = l.hunt := rfl
@[simp] theorem watch_dwell : (l.watch f now).dwell = l.dwell := rfl
@[simp] theorem watch_ended : (l.watch f now).ended = l.ended := rfl
@[simp] theorem watch_candidate : (l.watch f now).candidate = l.candidate := rfl
@[simp] theorem watch_huntFrom : (l.watch f now).huntFrom = l.huntFrom := rfl
@[simp] theorem watch_expected : (l.watch f now).expected = l.expected := rfl
@[simp] theorem watch_qualifying : (l.watch f now).qualifying = l.qualifying := rfl
@[simp] theorem watch_run : (l.watch f now).run = l.run := rfl
@[simp] theorem watch_badAlign : (l.watch f now).badAlign = l.badAlign := rfl
@[simp] theorem watch_alignErr : (l.watch f now).alignErr = l.alignErr := rfl
@[simp] theorem watch_checkErr : (l.watch f now).checkErr = l.checkErr := rfl
@[simp] theorem watch_seqErr : (l.watch f now).seqErr = l.seqErr := rfl
@[simp] theorem watch_remoteAlarm : (l.watch f now).remoteAlarm = l.remoteAlarm := rfl
@[simp] theorem watch_stationFault : (l.watch f now).stationFault = l.stationFault := rfl
@[simp] theorem watch_buffer : (l.watch f now).buffer = l.buffer := rfl
@[simp] theorem watch_continuous : (l.watch f now).continuous = l.continuous := rfl
@[simp] theorem watch_blindTimer : (l.watch f now).blindTimer = l.blindTimer := rfl
@[simp] theorem watch_blind : (l.watch f now).blind = l.blind := rfl
@[simp] theorem watch_tx : (l.watch f now).tx = l.tx := rfl
@[simp] theorem watch_edge : (l.watch f now).edge = l.edgeAfter now 480 l.level (frameBits f) := rfl
@[simp] theorem watch_frameEnd : (l.watch f now).frameEnd = now := rfl
@[simp] theorem watch_level : (l.watch f now).level = f.service.getLsbD 0 := rfl

end watch

section watchRun

variable (l : Lif) (bits : Word) (now : Time)

@[simp] theorem watchRun_cfg : (l.watchRun bits now).cfg = l.cfg := rfl
@[simp] theorem watchRun_rx : (l.watchRun bits now).rx = l.rx := rfl
@[simp] theorem watchRun_selected : (l.watchRun bits now).selected = l.selected := rfl
@[simp] theorem watchRun_trial : (l.watchRun bits now).trial = l.trial := rfl
@[simp] theorem watchRun_hunt : (l.watchRun bits now).hunt = l.hunt := rfl
@[simp] theorem watchRun_dwell : (l.watchRun bits now).dwell = l.dwell := rfl
@[simp] theorem watchRun_ended : (l.watchRun bits now).ended = l.ended := rfl
@[simp] theorem watchRun_candidate : (l.watchRun bits now).candidate = l.candidate := rfl
@[simp] theorem watchRun_huntFrom : (l.watchRun bits now).huntFrom = l.huntFrom := rfl
@[simp] theorem watchRun_expected : (l.watchRun bits now).expected = l.expected := rfl
@[simp] theorem watchRun_qualifying : (l.watchRun bits now).qualifying = l.qualifying := rfl
@[simp] theorem watchRun_run : (l.watchRun bits now).run = l.run := rfl
@[simp] theorem watchRun_badAlign : (l.watchRun bits now).badAlign = l.badAlign := rfl
@[simp] theorem watchRun_frameEnd : (l.watchRun bits now).frameEnd = l.frameEnd := rfl
@[simp] theorem watchRun_level : (l.watchRun bits now).level = l.level := rfl
@[simp] theorem watchRun_alignErr : (l.watchRun bits now).alignErr = l.alignErr := rfl
@[simp] theorem watchRun_checkErr : (l.watchRun bits now).checkErr = l.checkErr := rfl
@[simp] theorem watchRun_seqErr : (l.watchRun bits now).seqErr = l.seqErr := rfl
@[simp] theorem watchRun_remoteAlarm : (l.watchRun bits now).remoteAlarm = l.remoteAlarm := rfl
@[simp] theorem watchRun_stationFault : (l.watchRun bits now).stationFault = l.stationFault := rfl
@[simp] theorem watchRun_buffer : (l.watchRun bits now).buffer = l.buffer := rfl
@[simp] theorem watchRun_continuous : (l.watchRun bits now).continuous = l.continuous := rfl
@[simp] theorem watchRun_blindTimer : (l.watchRun bits now).blindTimer = l.blindTimer := rfl
@[simp] theorem watchRun_blind : (l.watchRun bits now).blind = l.blind := rfl
@[simp] theorem watchRun_tx : (l.watchRun bits now).tx = l.tx := rfl
@[simp] theorem watchRun_edge : (l.watchRun bits now).edge = l.edgeAfter now 16 bits.msb (bitsSent bits) := rfl

end watchRun

section setPoint

variable (i : PointNo) (p : Point) (s : State)

@[simp] theorem setPoint_held : (s.setPoint i p).held = s.held := rfl
@[simp] theorem setPoint_now : (s.setPoint i p).now = s.now := rfl
@[simp] theorem setPoint_straps : (s.setPoint i p).straps = s.straps := rfl
@[simp] theorem setPoint_lif : (s.setPoint i p).lif = s.lif := rfl
@[simp] theorem setPoint_acq : (s.setPoint i p).acq = s.acq := rfl
@[simp] theorem setPoint_out : (s.setPoint i p).out = s.out := rfl
@[simp] theorem setPoint_mbc : (s.setPoint i p).mbc = s.mbc := rfl
@[simp] theorem setPoint_wsv : (s.setPoint i p).wsv = s.wsv := rfl
@[simp] theorem setPoint_tgd : (s.setPoint i p).tgd = s.tgd := rfl
@[simp] theorem setPoint_hxu : (s.setPoint i p).hxu = s.hxu := rfl
@[simp] theorem setPoint_clk : (s.setPoint i p).clk = s.clk := rfl
@[simp] theorem setPoint_evq : (s.setPoint i p).evq = s.evq := rfl
@[simp] theorem setPoint_cap : (s.setPoint i p).cap = s.cap := rfl
@[simp] theorem setPoint_cpt : (s.setPoint i p).cpt = s.cpt := rfl
@[simp] theorem setPoint_view : (s.setPoint i p).view = s.view := rfl
@[simp] theorem setPoint_todo : (s.setPoint i p).todo = s.todo := rfl
@[simp] theorem setPoint_free : (s.setPoint i p).free = s.free := rfl
@[simp] theorem setPoint_pending : (s.setPoint i p).pending = s.pending := rfl

end setPoint

section setChannel

variable (i : ChannelNo) (c : Channel) (s : State)

@[simp] theorem setChannel_held : (s.setChannel i c).held = s.held := rfl
@[simp] theorem setChannel_now : (s.setChannel i c).now = s.now := rfl
@[simp] theorem setChannel_straps : (s.setChannel i c).straps = s.straps := rfl
@[simp] theorem setChannel_lif : (s.setChannel i c).lif = s.lif := rfl
@[simp] theorem setChannel_out : (s.setChannel i c).out = s.out := rfl
@[simp] theorem setChannel_mbc : (s.setChannel i c).mbc = s.mbc := rfl
@[simp] theorem setChannel_wsv : (s.setChannel i c).wsv = s.wsv := rfl
@[simp] theorem setChannel_tgd : (s.setChannel i c).tgd = s.tgd := rfl
@[simp] theorem setChannel_hxu : (s.setChannel i c).hxu = s.hxu := rfl
@[simp] theorem setChannel_scm : (s.setChannel i c).scm = s.scm := rfl
@[simp] theorem setChannel_clk : (s.setChannel i c).clk = s.clk := rfl
@[simp] theorem setChannel_evq : (s.setChannel i c).evq = s.evq := rfl
@[simp] theorem setChannel_cap : (s.setChannel i c).cap = s.cap := rfl
@[simp] theorem setChannel_cpt : (s.setChannel i c).cpt = s.cpt := rfl
@[simp] theorem setChannel_view : (s.setChannel i c).view = s.view := rfl
@[simp] theorem setChannel_todo : (s.setChannel i c).todo = s.todo := rfl
@[simp] theorem setChannel_free : (s.setChannel i c).free = s.free := rfl
@[simp] theorem setChannel_pending : (s.setChannel i c).pending = s.pending := rfl

end setChannel

section reachEnd

variable (t : Timer) (s : State)

@[simp] theorem reachEnd_held : (s.reachEnd t).held = s.held := rfl
@[simp] theorem reachEnd_straps : (s.reachEnd t).straps = s.straps := rfl
@[simp] theorem reachEnd_lif : (s.reachEnd t).lif = s.lif := rfl
@[simp] theorem reachEnd_acq : (s.reachEnd t).acq = s.acq := rfl
@[simp] theorem reachEnd_out : (s.reachEnd t).out = s.out := rfl
@[simp] theorem reachEnd_mbc : (s.reachEnd t).mbc = s.mbc := rfl
@[simp] theorem reachEnd_wsv : (s.reachEnd t).wsv = s.wsv := rfl
@[simp] theorem reachEnd_tgd : (s.reachEnd t).tgd = s.tgd := rfl
@[simp] theorem reachEnd_hxu : (s.reachEnd t).hxu = s.hxu := rfl
@[simp] theorem reachEnd_scm : (s.reachEnd t).scm = s.scm := rfl
@[simp] theorem reachEnd_clk : (s.reachEnd t).clk = s.clk := rfl
@[simp] theorem reachEnd_evq : (s.reachEnd t).evq = s.evq := rfl
@[simp] theorem reachEnd_cap : (s.reachEnd t).cap = s.cap := rfl
@[simp] theorem reachEnd_cpt : (s.reachEnd t).cpt = s.cpt := rfl
@[simp] theorem reachEnd_view : (s.reachEnd t).view = s.view := rfl
@[simp] theorem reachEnd_todo : (s.reachEnd t).todo = s.todo := rfl
@[simp] theorem reachEnd_free : (s.reachEnd t).free = s.free := rfl
@[simp] theorem reachEnd_pending : (s.reachEnd t).pending = s.pending := rfl

end reachEnd

section hears

variable (s : State)

@[simp] theorem hears_held : (s.hears).held = s.held := rfl
@[simp] theorem hears_now : (s.hears).now = s.now := rfl
@[simp] theorem hears_straps : (s.hears).straps = s.straps := rfl
@[simp] theorem hears_lif : (s.hears).lif = s.lif := rfl
@[simp] theorem hears_acq : (s.hears).acq = s.acq := rfl
@[simp] theorem hears_out : (s.hears).out = s.out := rfl
@[simp] theorem hears_wsv : (s.hears).wsv = s.wsv := rfl
@[simp] theorem hears_tgd : (s.hears).tgd = s.tgd := rfl
@[simp] theorem hears_hxu : (s.hears).hxu = s.hxu := rfl
@[simp] theorem hears_scm : (s.hears).scm = s.scm := rfl
@[simp] theorem hears_clk : (s.hears).clk = s.clk := rfl
@[simp] theorem hears_evq : (s.hears).evq = s.evq := rfl
@[simp] theorem hears_cap : (s.hears).cap = s.cap := rfl
@[simp] theorem hears_view : (s.hears).view = s.view := rfl
@[simp] theorem hears_todo : (s.hears).todo = s.todo := rfl
@[simp] theorem hears_free : (s.hears).free = s.free := rfl
@[simp] theorem hears_pending : (s.hears).pending = s.pending := rfl

end hears

section restartHostTimer

variable (s : State)

@[simp] theorem restartHostTimer_held : (restartHostTimer s).held = s.held := rfl
@[simp] theorem restartHostTimer_now : (restartHostTimer s).now = s.now := rfl
@[simp] theorem restartHostTimer_straps : (restartHostTimer s).straps = s.straps := rfl
@[simp] theorem restartHostTimer_lif : (restartHostTimer s).lif = s.lif := rfl
@[simp] theorem restartHostTimer_acq : (restartHostTimer s).acq = s.acq := rfl
@[simp] theorem restartHostTimer_out : (restartHostTimer s).out = s.out := rfl
@[simp] theorem restartHostTimer_wsv : (restartHostTimer s).wsv = s.wsv := rfl
@[simp] theorem restartHostTimer_tgd : (restartHostTimer s).tgd = s.tgd := rfl
@[simp] theorem restartHostTimer_hxu : (restartHostTimer s).hxu = s.hxu := rfl
@[simp] theorem restartHostTimer_scm : (restartHostTimer s).scm = s.scm := rfl
@[simp] theorem restartHostTimer_clk : (restartHostTimer s).clk = s.clk := rfl
@[simp] theorem restartHostTimer_evq : (restartHostTimer s).evq = s.evq := rfl
@[simp] theorem restartHostTimer_cap : (restartHostTimer s).cap = s.cap := rfl
@[simp] theorem restartHostTimer_cpt : (restartHostTimer s).cpt = s.cpt := rfl
@[simp] theorem restartHostTimer_view : (restartHostTimer s).view = s.view := rfl
@[simp] theorem restartHostTimer_todo : (restartHostTimer s).todo = s.todo := rfl
@[simp] theorem restartHostTimer_free : (restartHostTimer s).free = s.free := rfl
@[simp] theorem restartHostTimer_pending : (restartHostTimer s).pending = s.pending := rfl

end restartHostTimer

section fillBuffer

variable (kind : Byte) (r : Request) (a : Answer) (s : State)

@[simp] theorem fillBuffer_held : (fillBuffer kind r (a, s)).held = s.held := rfl
@[simp] theorem fillBuffer_now : (fillBuffer kind r (a, s)).now = s.now := rfl
@[simp] theorem fillBuffer_straps : (fillBuffer kind r (a, s)).straps = s.straps := rfl
@[simp] theorem fillBuffer_lif : (fillBuffer kind r (a, s)).lif = s.lif := rfl
@[simp] theorem fillBuffer_acq : (fillBuffer kind r (a, s)).acq = s.acq := rfl
@[simp] theorem fillBuffer_out : (fillBuffer kind r (a, s)).out = s.out := rfl
@[simp] theorem fillBuffer_mbc : (fillBuffer kind r (a, s)).mbc = s.mbc := rfl
@[simp] theorem fillBuffer_wsv : (fillBuffer kind r (a, s)).wsv = s.wsv := rfl
@[simp] theorem fillBuffer_tgd : (fillBuffer kind r (a, s)).tgd = s.tgd := rfl
@[simp] theorem fillBuffer_hxu : (fillBuffer kind r (a, s)).hxu = s.hxu := rfl
@[simp] theorem fillBuffer_scm : (fillBuffer kind r (a, s)).scm = s.scm := rfl
@[simp] theorem fillBuffer_clk : (fillBuffer kind r (a, s)).clk = s.clk := rfl
@[simp] theorem fillBuffer_evq : (fillBuffer kind r (a, s)).evq = s.evq := rfl
@[simp] theorem fillBuffer_cap : (fillBuffer kind r (a, s)).cap = s.cap := rfl
@[simp] theorem fillBuffer_view : (fillBuffer kind r (a, s)).view = s.view := rfl
@[simp] theorem fillBuffer_todo : (fillBuffer kind r (a, s)).todo = s.todo := rfl
@[simp] theorem fillBuffer_free : (fillBuffer kind r (a, s)).free = s.free + 1 := rfl
@[simp] theorem fillBuffer_pending : (fillBuffer kind r (a, s)).pending = s.pending := rfl

end fillBuffer

section receiver

variable (rx : CptRx) (s : State)

@[simp] theorem receiver_held : (receiver rx s).held = s.held := rfl
@[simp] theorem receiver_now : (receiver rx s).now = s.now := rfl
@[simp] theorem receiver_straps : (receiver rx s).straps = s.straps := rfl
@[simp] theorem receiver_lif : (receiver rx s).lif = s.lif := rfl
@[simp] theorem receiver_acq : (receiver rx s).acq = s.acq := rfl
@[simp] theorem receiver_out : (receiver rx s).out = s.out := rfl
@[simp] theorem receiver_mbc : (receiver rx s).mbc = s.mbc := rfl
@[simp] theorem receiver_wsv : (receiver rx s).wsv = s.wsv := rfl
@[simp] theorem receiver_tgd : (receiver rx s).tgd = s.tgd := rfl
@[simp] theorem receiver_hxu : (receiver rx s).hxu = s.hxu := rfl
@[simp] theorem receiver_scm : (receiver rx s).scm = s.scm := rfl
@[simp] theorem receiver_clk : (receiver rx s).clk = s.clk := rfl
@[simp] theorem receiver_evq : (receiver rx s).evq = s.evq := rfl
@[simp] theorem receiver_cap : (receiver rx s).cap = s.cap := rfl
@[simp] theorem receiver_view : (receiver rx s).view = s.view := rfl
@[simp] theorem receiver_todo : (receiver rx s).todo = s.todo := rfl
@[simp] theorem receiver_free : (receiver rx s).free = s.free := rfl
@[simp] theorem receiver_pending : (receiver rx s).pending = s.pending := rfl
@[simp] theorem receiver_rx : (receiver rx s).cpt.rx = rx := rfl
@[simp] theorem receiver_buffer : (receiver rx s).cpt.buffer = s.cpt.buffer := rfl
@[simp] theorem receiver_overrun : (receiver rx s).cpt.overrun = s.cpt.overrun := rfl

end receiver

end Sys2Proof.Machine
end

