-- ==== Sys2Proof/Laws/Frames.lean ====
section
/-! SUPPORT. What each shared operation and each effect leaves unchanged: the part of State outside a list of blocks. -/

namespace Sys2Proof.Machine

/-- The fields of State. -/
inductive Part where
  | held | now | straps | lif | acq | out | mbc | wsv | tgd | hxu | scm | clk | evq | cap | cpt | view | todo | free | pending
  deriving DecidableEq, Repr

/-- A field of two states is the same. -/
def Part.same (p : Part) (s t : State) : Prop :=
  match p with
  | .held => t.held = s.held
  | .now => t.now = s.now
  | .straps => t.straps = s.straps
  | .lif => t.lif = s.lif
  | .acq => t.acq = s.acq
  | .out => t.out = s.out
  | .mbc => t.mbc = s.mbc
  | .wsv => t.wsv = s.wsv
  | .tgd => t.tgd = s.tgd
  | .hxu => t.hxu = s.hxu
  | .scm => t.scm = s.scm
  | .clk => t.clk = s.clk
  | .evq => t.evq = s.evq
  | .cap => t.cap = s.cap
  | .cpt => t.cpt = s.cpt
  | .view => t.view = s.view
  | .todo => t.todo = s.todo
  | .free => t.free = s.free
  | .pending => t.pending = s.pending

/-- Every field outside a list is unchanged. -/
structure Frame (ps : List Part) (s t : State) : Prop where
  same : ∀ p, p ∉ ps → p.same s t

theorem Part.same_refl (p : Part) (s : State) : p.same s s := by cases p <;> rfl

theorem Part.same_trans {p : Part} {s t u : State} (h : p.same s t) (k : p.same t u) : p.same s u := by
  cases p <;> exact Eq.trans k h

theorem Frame.refl (ps : List Part) (s : State) : Frame ps s s := ⟨fun p _ => p.same_refl s⟩

theorem Frame.trans {ps : List Part} {s t u : State} (h : Frame ps s t) (k : Frame ps t u) : Frame ps s u :=
  ⟨fun p hp => Part.same_trans (h.same p hp) (k.same p hp)⟩

theorem Frame.mono {ps qs : List Part} {s t : State} (h : Frame ps s t) (sub : ∀ p ∈ ps, p ∈ qs) : Frame qs s t :=
  ⟨fun p hp => h.same p fun m => hp (sub p m)⟩

/-- One more operation, which keeps to the list. -/
theorem Frame.then {ps qs : List Part} {s t u : State} (h : Frame ps s t) (k : Frame qs t u) (sub : ∀ p ∈ qs, p ∈ ps) :
    Frame ps s u := h.trans (k.mono sub)

theorem Frame.foldl {α : Type} {ps : List Part} {f : State → α → State} (h : ∀ s a, Frame ps s (f s a)) (l : List α) (s : State) :
    Frame ps s (l.foldl f s) := by
  induction l generalizing s with
  | nil => exact .refl ps s
  | cons a l ih => exact (h s a).trans (ih _)

theorem Frame.ite {ps : List Part} {c : Prop} [Decidable c] {s t u : State} (h : Frame ps s t) (k : Frame ps s u) :
    Frame ps s (if c then t else u) := by split <;> assumption

/-! ## The shared operations -/

theorem raise_frame (k : EventKind) (a b : Int) (s : State) : Frame [.evq] s (raise k a b s) := by
  refine ⟨fun p hp => ?_⟩; cases p <;> first | rfl | simp at hp

theorem raiseIf_frame (c : Bool) (k : EventKind) (a b : Int) (s : State) : Frame [.evq] s (raiseIf c k a b s) := by
  unfold raiseIf
  exact Frame.ite (raise_frame k a b s) (.refl _ s)

theorem raiseAll_frame (es : List Report) (s : State) : Frame [.evq] s (raiseAll es s) := by
  unfold raiseAll raiseOne
  exact .foldl (fun s e => raise_frame e.kind e.subject e.param s) es s

theorem deliver_frame (src : Source) (v : Int) (s : State) : Frame [.out] s (deliver src v s) := by
  refine ⟨fun p hp => ?_⟩; cases p <;> first | rfl | simp at hp

theorem reachEnd_frame (t : Timer) (s : State) : Frame [.now] s (s.reachEnd t) := by
  refine ⟨fun p hp => ?_⟩; cases p <;> first | rfl | simp at hp

theorem setWell_frame (i : WellNo) (w : Well) (s : State) : Frame [.wsv] s (s.setWell i w) := by
  refine ⟨fun p hp => ?_⟩; cases p <;> first | rfl | simp at hp

theorem setPoint_frame (i : PointNo) (q : Point) (s : State) : Frame [.scm] s (s.setPoint i q) := by
  refine ⟨fun p hp => ?_⟩; cases p <;> first | rfl | simp at hp

theorem setChannel_frame (i : ChannelNo) (c : Channel) (s : State) : Frame [.acq] s (s.setChannel i c) := by
  refine ⟨fun p hp => ?_⟩; cases p <;> first | rfl | simp at hp

theorem eitherOrder_frame {ps : List Part} {f g : State → State} (hf : ∀ s, Frame ps s (f s)) (hg : ∀ s, Frame ps s (g s))
    (s : State) : Frame (.free :: ps) s (eitherOrder f g s) := by
  have h0 : Frame (.free :: ps) s { s with free := s.free + 1 } := by
    refine ⟨fun p hp => ?_⟩; cases p <;> first | rfl | simp at hp
  have hf' : ∀ s, Frame (.free :: ps) s (f s) := fun s => (hf s).mono fun p m => List.mem_cons_of_mem _ m
  have hg' : ∀ s, Frame (.free :: ps) s (g s) := fun s => (hg s).mono fun p m => List.mem_cons_of_mem _ m
  unfold eitherOrder
  exact h0.trans (Frame.ite ((hf' _).trans (hg' _)) ((hg' _).trans (hf' _)))

/-! ## TGD -/

/-- The blocks that the turbine guard changes. -/
abbrev guardParts : List Part := [.tgd, .out, .evq]

theorem deliverStop_frame (v : Int) (s : State) : Frame guardParts s (deliverStop v s) := by
  refine ⟨fun p hp => ?_⟩; cases p <;> first | rfl | simp at hp

theorem deliverBypass_frame (s : State) : Frame guardParts s (deliverBypass s) := by
  refine ⟨fun p hp => ?_⟩; cases p <;> first | rfl | simp at hp

theorem setCap_frame (s : State) : Frame guardParts s (setCap s) := by
  refine ⟨fun p hp => ?_⟩
  unfold setCap
  cases p <;> first | (simp at hp; done) | (dsimp only; split <;> rfl)

theorem takeCause_frame (c : Cause) (b : Bool) (s : State) : Frame guardParts s (takeCause c b s) := by
  unfold takeCause
  split
  · refine Frame.trans ?_ ((deliverStop_frame _ _).trans ((deliverBypass_frame _).trans (setCap_frame _)))
    refine ⟨fun p hp => ?_⟩; cases p <;> first | rfl | simp at hp
  · refine Frame.ite (.refl _ s) ?_
    refine ⟨fun p hp => ?_⟩; cases p <;> first | rfl | simp at hp

theorem takeHolding_frame (s : State) (c : Cause × Bool) : Frame guardParts s (takeHolding s c) := takeCause_frame c.1 c.2 s

theorem count_frame (s : State) : Frame guardParts s { s with tgd := s.tgd.count s.tgd.view } := by
  refine ⟨fun p hp => ?_⟩; cases p <;> first | rfl | simp at hp

theorem tgdCauses_frame (s : State) : Frame guardParts s (tgdCauses s) :=
  (count_frame s).trans (Frame.foldl takeHolding_frame _ _)

theorem tgdChain_frame (s : State) : Frame guardParts s (tgdChain s) := by
  refine ⟨fun p hp => ?_⟩
  unfold tgdChain
  cases p <;> first | (simp at hp; done) | simp [Part.same]

theorem tgdDemands_frame (s : State) : Frame guardParts s (tgdDemands s) :=
  Frame.trans (t := deliverStop s.tgd.guard.stop s) (deliverStop_frame _ s) (deliverBypass_frame (deliverStop s.tgd.guard.stop s))

theorem tgdProcess_frame (s : State) : Frame (.todo :: guardParts) s (tgdProcess s) := by
  unfold tgdProcess
  refine Frame.ite ?_ (.refl _ s)
  refine Frame.trans (t := { s with todo := { s.todo with tgd := false }, tgd := { s.tgd with view := s.view } }) ?_ ?_
  · refine ⟨fun p hp => ?_⟩; cases p <;> first | rfl | simp at hp
  · exact ((tgdCauses_frame _).trans ((tgdChain_frame _).trans (tgdDemands_frame _))).mono (by decide)

theorem chainReset_frame (s : State) : Frame guardParts s (chainReset s) := by
  refine ⟨fun p hp => ?_⟩
  unfold chainReset
  cases p <;> first | (simp at hp; done) | simp [Part.same]

theorem holdExpiry_frame (st : HoldStep) (s : State) : Frame (.now :: guardParts) s (holdExpiry st s) := by
  refine ⟨fun p hp => ?_⟩
  unfold holdExpiry
  split <;> cases p <;> first | rfl | simp at hp

/-- What a handler leaves unchanged: an answer only adds the status and payload. -/
abbrev HandlerFrame (ps : List Part) (h : Handler) : Prop := ∀ (b : List Byte) (s : State), Frame ps s (h b s).2

theorem turbineAnswer_frame {ps : List Part} {s t : State} (st : Status) (k i : Int) (h : Frame ps s t) :
    Frame ps s (turbineAnswer st k i t).2 := h

theorem turbineTrip_frame (s : State) : Frame guardParts s (turbineTrip s).2 := by
  unfold turbineTrip
  split
  · exact .refl _ s
  · split
    · exact .refl _ s
    · exact turbineAnswer_frame _ _ _ (takeCause_frame _ _ s)

theorem turbineRelease_frame (s : State) : Frame guardParts s (turbineRelease s).2 := by
  unfold turbineRelease
  repeat' split
  all_goals first
    | exact .refl _ s
    | (refine ⟨fun p hp => ?_⟩; cases p <;> first | rfl | simp at hp)

theorem turbineArm_frame (s : State) : Frame guardParts s (turbineArm s) := by
  refine ⟨fun p hp => ?_⟩; cases p <;> first | rfl | simp at hp

theorem turbineReset_frame (s : State) : Frame guardParts s (turbineReset s).2 := by
  unfold turbineReset
  repeat' split
  all_goals first
    | exact .refl _ s
    | exact turbineAnswer_frame _ _ _ (turbineArm_frame s)

theorem turbineCmd_frame : HandlerFrame guardParts turbineCmd := by
  intro b s
  unfold turbineCmd
  repeat' split
  all_goals first
    | exact .refl _ s
    | exact turbineTrip_frame s
    | exact turbineReset_frame s
    | exact turbineRelease_frame s

theorem readTurbine_frame : HandlerFrame [] readTurbine := by
  intro b s; unfold readTurbine; split <;> exact .refl _ s

/-! ## OUT -/

theorem outputService_frame (i : OutputNo) (b : Bool) (s : State) : Frame [.out] s (outputService i b s).2 := by
  unfold outputService
  dsimp only
  split
  · exact .refl _ s
  · split
    · exact .refl _ s
    · refine ⟨fun p hp => ?_⟩; cases p <;> first | rfl | simp at hp

theorem outputCmd_frame : HandlerFrame [.out] outputCmd := by
  intro b s
  unfold outputCmd
  repeat' split
  all_goals first
    | exact .refl _ s
    | exact outputService_frame _ _ s

theorem readOutputs_frame : HandlerFrame [] readOutputs := by
  intro b s; unfold readOutputs; repeat' split
  all_goals exact .refl _ s

/-! ## WSV -/

/-- The blocks that the well supervisor changes. -/
abbrev wellParts : List Part := [.wsv, .out, .evq]

theorem deliverWell_frame (i : WellNo) (s : State) : Frame wellParts s (deliverWell i s) := by
  refine ⟨fun p hp => ?_⟩; cases p <;> first | rfl | simp at hp

theorem setWell_wells (i : WellNo) (w : Well) (s : State) : Frame wellParts s (s.setWell i w) :=
  (setWell_frame i w s).mono (by decide)

theorem raise_wells (k : EventKind) (a b : Int) (s : State) : Frame wellParts s (raise k a b s) :=
  (raise_frame k a b s).mono (by decide)

theorem raiseIf_wells (c : Bool) (k : EventKind) (a b : Int) (s : State) : Frame wellParts s (raiseIf c k a b s) :=
  (raiseIf_frame c k a b s).mono (by decide)

/-- A change of the supervisor's own record. -/
theorem wsv_frame (v : Wsv) (s : State) : Frame wellParts s { s with wsv := v } := by
  refine ⟨fun p hp => ?_⟩; cases p <;> first | rfl | simp at hp

theorem releaseSlot_frame (s : State) : Frame wellParts s (releaseSlot s) := wsv_frame _ s

theorem grant_frame (i : WellNo) (s : State) : Frame wellParts s (grant i s) := by
  unfold grant
  refine Frame.trans ?_ (raise_wells _ _ _ _)
  refine Frame.trans ?_ (deliverWell_frame _ _)
  refine Frame.trans ?_ (setWell_wells _ _ _)
  exact wsv_frame _ s

theorem arbiter_frame (s : State) : Frame wellParts s (arbiter s) := by
  unfold arbiter
  repeat' split
  all_goals first
    | exact .refl _ s
    | exact grant_frame _ s

theorem tripWell_frame (c : TripCause) (i : WellNo) (s : State) : Frame wellParts s (tripWell c i s) := by
  unfold tripWell
  dsimp only
  refine Frame.trans ?_ (deliverWell_frame _ _)
  refine Frame.trans ?_ (raise_wells _ _ _ _)
  refine Frame.trans ?_ (setWell_wells _ _ _)
  exact Frame.ite (releaseSlot_frame s) (.refl _ s)

theorem noteBlind_frame (k : EventKind) (i : WellNo) (r : Reading) (m : Bool) (put : Bool → Well → Well) (s : State) :
    Frame wellParts s (noteBlind k i r m put s) := by
  unfold noteBlind
  exact Frame.ite (setWell_wells _ _ s) (Frame.ite (.refl _ s) ((setWell_wells _ _ s).trans (raise_wells _ _ _ _)))

theorem noteFlow_frame (i : WellNo) (s : State) : Frame wellParts s (noteFlow i s) := noteBlind_frame _ i _ _ _ s

theorem noteIntake_frame (i : WellNo) (s : State) : Frame wellParts s (noteIntake i s) := noteBlind_frame _ i _ _ _ s

theorem noteMotor_frame (i : WellNo) (s : State) : Frame wellParts s (noteMotor i s) := by
  unfold noteMotor
  split
  · exact .refl _ s
  · exact noteBlind_frame _ i _ _ _ s

theorem startRunning_frame (i : WellNo) (s : State) : Frame wellParts s (startRunning i s) := by
  refine ⟨fun p hp => ?_⟩; cases p <;> first | rfl | simp at hp

theorem testStarting_frame (i : WellNo) (s : State) : Frame wellParts s (testStarting i s) := by
  unfold testStarting
  refine (noteMotor_frame i s).trans (Frame.ite (tripWell_frame _ i _) ?_)
  exact (noteFlow_frame i _).trans (Frame.ite (startRunning_frame i _) (.refl _ _))

theorem testRunning_frame (i : WellNo) (s : State) : Frame wellParts s (testRunning i s) := by
  unfold testRunning
  refine (noteMotor_frame i s).trans (Frame.ite (tripWell_frame _ i _) ?_)
  refine ((noteFlow_frame i _).trans (noteIntake_frame i _)).trans ?_
  exact (setWell_wells _ _ _).trans (Frame.ite (tripWell_frame _ i _) (.refl _ _))

theorem processWell_frame (s : State) (i : WellNo) : Frame wellParts s (processWell s i) := by
  unfold processWell
  split
  · exact .refl _ s
  · exact (testStarting_frame i s).trans (deliverWell_frame i _)
  · exact (testRunning_frame i s).trans (deliverWell_frame i _)
  · exact deliverWell_frame i s

theorem takeResult_frame (f : Int) (r : BalanceResult) (s : State) : Frame wellParts s (takeResult f r s) := by
  unfold takeResult
  exact (wsv_frame _ s).trans ((raiseIf_wells _ _ _ _ _).trans (raiseIf_wells _ _ _ _ _))

theorem takeHeld_frame (s : State) : Frame wellParts s (takeHeld s) := by
  unfold takeHeld
  exact (wsv_frame _ s).trans (raiseIf_wells _ _ _ _ _)

theorem wsvBalance_frame (s : State) : Frame wellParts s (wsvBalance s) := by
  unfold wsvBalance
  split
  · exact wsv_frame _ s
  · exact (wsv_frame _ s).trans (Frame.ite (takeResult_frame _ _ _) (takeHeld_frame _))

theorem wsvCeiling_frame (s : State) : Frame wellParts s (wsvCeiling s) := wsv_frame _ s

theorem wsvWells_frame (s : State) : Frame wellParts s (wsvWells s) := Frame.foldl processWell_frame _ s

theorem wsvGrant_frame (b : Option WellNo) (s : State) : Frame wellParts s (wsvGrant b s) := by
  unfold wsvGrant
  exact Frame.ite (arbiter_frame s) (.refl _ s)

theorem wsvPhases_frame (s : State) : Frame wellParts s (wsvPhases s) :=
  ((wsvBalance_frame s).trans (wsvCeiling_frame _)).trans ((wsvWells_frame _).trans (wsvGrant_frame _ _))

theorem frozenWell_frame (s : State) (i : WellNo) : Frame wellParts s (frozenWell s i) := by
  unfold frozenWell
  exact Frame.ite (deliverWell_frame i s) (.refl _ s)

theorem wsvFrozen_frame (s : State) : Frame wellParts s (wsvFrozen s) := by
  unfold wsvFrozen
  exact (wsv_frame _ s).trans (Frame.foldl frozenWell_frame _ _)

/-- The start of a job's processing of a snapshot by the well supervisor. -/
theorem wsvTake_frame (j : Jobs) (v : Wsv) (s : State) : Frame (.todo :: wellParts) s { s with todo := j, wsv := v } := by
  refine ⟨fun p hp => ?_⟩; cases p <;> first | rfl | simp at hp

theorem wsvProcess_frame (s : State) : Frame (.todo :: wellParts) s (wsvProcess s) := by
  unfold wsvProcess
  refine Frame.ite ?_ (.refl _ s)
  dsimp only
  refine (wsvTake_frame { s.todo with wsv := false } { s.wsv with view := s.view } s).trans ?_
  split
  · exact (wsvPhases_frame _).mono (by decide)
  · exact (wsvPhases_frame _).mono (by decide)
  · exact (wsvFrozen_frame _).mono (by decide)
  · exact (wsvFrozen_frame _).mono (by decide)

theorem reachEnd_mono {ps : List Part} (t : Timer) (s : State) : Frame (.now :: ps) s (s.reachEnd t) :=
  (reachEnd_frame t s).mono fun p h => by simp at h; simp [h]

theorem startExpiry_frame (i : WellNo) (s : State) : Frame (.now :: wellParts) s (startExpiry i s) := by
  unfold startExpiry
  split
  · exact (reachEnd_mono _ s).trans (((tripWell_frame _ i _).trans (arbiter_frame _)).mono (by decide))
  · exact .refl _ s

theorem staggerExpiry_frame (s : State) : Frame (.now :: wellParts) s (staggerExpiry s) := by
  unfold staggerExpiry
  split
  · exact (reachEnd_mono _ s).trans (((wsv_frame _ _).trans (arbiter_frame _)).mono (by decide))
  · exact .refl _ s

theorem stopWell_frame (why : Int) (i : WellNo) (s : State) : Frame wellParts s (stopWell why i s) := by
  unfold stopWell
  refine Frame.trans ?_ (raise_wells _ _ _ _)
  refine Frame.trans ?_ (deliverWell_frame _ _)
  refine Frame.trans ?_ (setWell_wells _ _ _)
  exact wsv_frame _ s

theorem unqueueWell_frame (s : State) (i : WellNo) : Frame wellParts s (unqueueWell s i) := by
  unfold unqueueWell
  exact Frame.ite (stopWell_frame _ i s) (.refl _ s)

theorem emptyStartQueue_frame (s : State) : Frame wellParts s (emptyStartQueue s) := by
  unfold emptyStartQueue
  exact (Frame.foldl unqueueWell_frame _ s).trans (wsv_frame _ _)

theorem wellStart_frame (i : WellNo) (s : State) : Frame wellParts s (wellStart i s).2 := by
  unfold wellStart
  split
  · exact (wsv_frame _ s).trans ((setWell_wells _ _ _).trans ((raise_wells _ _ _ _).trans (arbiter_frame _)))
  all_goals exact .refl _ s

theorem wellStop_frame (i : WellNo) (s : State) : Frame wellParts s (wellStop i s).2 := by
  unfold wellStop
  split
  · exact stopWell_frame _ i s
  · exact (releaseSlot_frame s).trans ((stopWell_frame _ i _).trans (arbiter_frame _))
  · exact stopWell_frame _ i s
  · exact .refl _ s

theorem wellClear_frame (i : WellNo) (s : State) : Frame wellParts s (wellClear i s).2 := by
  unfold wellClear
  split
  · exact (setWell_wells _ _ s).trans (raise_wells _ _ _ _)
  · exact (setWell_wells _ _ s).trans (raise_wells _ _ _ _)
  · exact .refl _ s

theorem wellServiceOut_frame (i : WellNo) (s : State) : Frame wellParts s (wellServiceOut i s).2 := by
  unfold wellServiceOut
  dsimp only
  split
  · exact (setWell_wells _ _ s).trans (raise_wells _ _ _ _)
  · exact (setWell_wells _ _ s).trans (raise_wells _ _ _ _)
  · exact (setWell_wells _ _ s).trans (raise_wells _ _ _ _)
  · exact .refl _ s

theorem wellServiceIn_frame (i : WellNo) (s : State) : Frame wellParts s (wellServiceIn i s).2 := by
  unfold wellServiceIn
  split
  · exact (setWell_wells _ _ s).trans (raise_wells _ _ _ _)
  · exact .refl _ s

theorem wellHold_frame (b : Bool) (i : WellNo) (s : State) : Frame wellParts s (wellHold b i s).2 := by
  unfold wellHold
  split
  · exact .refl _ s
  · exact setWell_wells _ _ s

theorem wellAct_frame (c : WellCommand) (i : WellNo) (s : State) : Frame wellParts s (wellAct c i s).2 := by
  cases c
  · exact wellStart_frame i s
  · exact wellStop_frame i s
  · exact wellClear_frame i s
  · exact wellServiceOut_frame i s
  · exact wellServiceIn_frame i s
  · exact wellHold_frame true i s
  · exact wellHold_frame false i s

theorem wellCmd_frame : HandlerFrame wellParts wellCmd := by
  intro b s
  unfold wellCmd
  repeat' split
  all_goals first
    | exact .refl _ s
    | exact wellAct_frame _ _ s

theorem readWells_frame : HandlerFrame [] readWells := by
  intro b s; unfold readWells; repeat' split
  all_goals exact .refl _ s

/-! ## HXU -/

/-- The blocks that the heat exchange unit changes. -/
abbrev heatParts : List Part := [.hxu, .out, .evq]

/-- A change of the unit's own record. -/
theorem hxu_frame (h : Hxu) (s : State) : Frame heatParts s { s with hxu := h } := by
  refine ⟨fun p hp => ?_⟩; cases p <;> first | rfl | simp at hp

theorem raise_heat (k : EventKind) (a b : Int) (s : State) : Frame heatParts s (raise k a b s) :=
  (raise_frame k a b s).mono (by decide)

theorem noteInput_frame (s : State) (i : Fin 7) : Frame heatParts s (noteInput s i) := by
  unfold noteInput
  exact (hxu_frame _ s).trans ((raiseIf_frame _ _ _ _ _).mono (by decide))

theorem hxuInputs_frame (s : State) : Frame heatParts s (hxuInputs s) := Frame.foldl noteInput_frame _ s

theorem hxuFloor_frame (s : State) : Frame heatParts s (hxuFloor s) := by
  unfold hxuFloor
  dsimp only
  split
  · exact hxu_frame _ s
  · exact (hxu_frame _ s).trans ((raiseAll_frame _ _).mono (by decide))

theorem hxuPlan_frame (s : State) : Frame heatParts s (hxuPlan s) := by
  unfold hxuPlan
  dsimp only
  split <;> exact hxu_frame _ s

theorem guardEngage_frame (r : Reading) (s : State) : Frame heatParts s (guardEngage r s) := by
  unfold guardEngage
  exact Frame.ite ((hxu_frame _ s).trans (raise_heat _ _ _ _)) (hxu_frame _ s)

theorem guardAdjust_frame (r : Reading) (s : State) : Frame heatParts s (guardAdjust r s) := by
  unfold guardAdjust
  dsimp only
  repeat' split
  all_goals first
    | exact .refl _ s
    | exact hxu_frame _ s
    | exact (hxu_frame _ s).trans (raise_heat _ _ _ _)

theorem guardTest_frame (r : Reading) (s : State) : Frame heatParts s (guardTest r s) := by
  unfold guardTest
  exact Frame.ite (.refl _ s) (guardEngage_frame r s)

theorem guardMove_frame (r : Reading) (s : State) : Frame heatParts s (guardMove r s) := by
  unfold guardMove
  exact Frame.ite (guardAdjust_frame r s) (.refl _ s)

theorem hxuGuard_frame (s : State) : Frame heatParts s (hxuGuard s) := (guardTest_frame _ s).trans (guardMove_frame _ _)

theorem deliverHeat_frame (d : Int) (s : State) : Frame heatParts s (deliverHeat d s) := by
  unfold deliverHeat
  exact Frame.ite ((deliver_frame _ _ s).mono (by decide)) (.refl _ s)

theorem hxuValve_frame (s : State) : Frame heatParts s (hxuValve s) := by
  unfold hxuValve
  exact (hxu_frame _ s).trans (deliverHeat_frame _ _)

theorem hxuMeter_frame (s : State) : Frame heatParts s (hxuMeter s) := by
  unfold hxuMeter
  dsimp only
  repeat' split
  all_goals first
    | exact .refl _ s
    | exact hxu_frame _ s

theorem hxuDeficit_frame (s : State) : Frame heatParts s (hxuDeficit s) := by
  unfold hxuDeficit
  dsimp only
  generalize (if (s.hxu.deficit && !s.hxu.planHeld) = true then _ else s.hxu) = h
  repeat' split
  all_goals first
    | exact hxu_frame _ s
    | exact (hxu_frame _ s).trans (raise_heat _ _ _ _)

theorem hxuPhases_frame (s : State) : Frame heatParts s (hxuPhases s) :=
  ((((hxuInputs_frame s).trans (hxuFloor_frame _)).trans ((hxuPlan_frame _).trans (hxuGuard_frame _))).trans
    (hxuValve_frame _)).trans ((hxuMeter_frame _).trans (hxuDeficit_frame _))

/-- The start of the unit's processing of a snapshot. -/
theorem hxuTake_frame (j : Jobs) (h : Hxu) (s : State) : Frame (.todo :: heatParts) s { s with todo := j, hxu := h } := by
  refine ⟨fun p hp => ?_⟩; cases p <;> first | rfl | simp at hp

theorem hxuProcess_frame (s : State) : Frame (.todo :: heatParts) s (hxuProcess s) := by
  unfold hxuProcess
  refine Frame.ite ?_ (.refl _ s)
  refine (hxuTake_frame { s.todo with hxu := false } { s.hxu with lastSnap := some s.view.number } s).trans ?_
  exact (Frame.ite (hxuPhases_frame _) (deliverHeat_frame _ _)).mono (by decide)

theorem readHeat_frame : HandlerFrame [] readHeat := by
  intro b s; unfold readHeat; split <;> exact .refl _ s

theorem clearEnergy_frame : HandlerFrame heatParts clearEnergy := by
  intro b s
  unfold clearEnergy
  split
  · exact (hxu_frame _ s).trans (raise_heat _ _ _ _)
  · exact .refl _ s

/-! ## SCM -/

/-- The blocks that the scaling monitor changes. -/
abbrev scaleParts : List Part := [.scm, .evq]

/-- A change of the monitor's own record. -/
theorem scm_frame (m : Scm) (s : State) : Frame scaleParts s { s with scm := m } := by
  refine ⟨fun p hp => ?_⟩; cases p <;> first | rfl | simp at hp

theorem raiseAll_scale (es : List Report) (s : State) : Frame scaleParts s (raiseAll es s) :=
  (raiseAll_frame es s).mono (by decide)

theorem cfComputed_frame (s : State) : Frame scaleParts s (cfComputed s) := by
  unfold cfComputed
  exact (scm_frame _ s).trans ((raiseIf_frame _ _ _ _ _).mono (by decide))

theorem cfNotComputed_frame (why : Int) (s : State) : Frame scaleParts s (cfNotComputed why s) := by
  unfold cfNotComputed
  dsimp only
  split
  · exact (scm_frame _ s).trans ((raise_frame _ _ _ _).mono (by decide))
  · exact scm_frame _ s
  · exact .refl _ s

theorem scmFactor_frame (s : State) : Frame scaleParts s (scmFactor s) := by
  unfold scmFactor
  dsimp only
  repeat' split
  all_goals first
    | refine Frame.trans ?_ (cfNotComputed_frame _ _)
    | refine Frame.trans ?_ (cfComputed_frame _)
  all_goals exact scm_frame _ s

theorem setPoint_scale (i : PointNo) (q : Point) (s : State) : Frame scaleParts s (s.setPoint i q) :=
  (setPoint_frame i q s).mono (by decide)

theorem processPoint_frame (s : State) (i : PointNo) : Frame scaleParts s (processPoint s i) := by
  unfold processPoint
  dsimp only
  repeat' split
  all_goals first
    | exact .refl _ s
    | exact (setPoint_scale _ _ s).trans (raiseAll_scale _ _)

/-- The start of the monitor's processing of a snapshot. -/
theorem scmTake_frame (j : Jobs) (m : Scm) (s : State) : Frame (.todo :: scaleParts) s { s with todo := j, scm := m } := by
  refine ⟨fun p hp => ?_⟩; cases p <;> first | rfl | simp at hp

theorem scmProcess_frame (s : State) : Frame (.todo :: scaleParts) s (scmProcess s) := by
  unfold scmProcess
  refine Frame.ite ?_ (.refl _ s)
  refine (scmTake_frame { s.todo with scm := false } { s.scm with lastSnap := some s.view.number } s).trans ?_
  exact ((scmFactor_frame _).trans (Frame.foldl processPoint_frame _ _)).mono (by decide)

theorem setLab_frame : HandlerFrame scaleParts setLab := by
  intro b s
  unfold setLab
  dsimp only
  repeat' split
  all_goals first
    | exact .refl _ s
    | exact (setPoint_scale _ _ s).trans ((raise_frame _ _ _ _).mono (by decide))

theorem ackAlarm_frame : HandlerFrame scaleParts ackAlarm := by
  intro b s
  unfold ackAlarm
  dsimp only
  repeat' split
  all_goals first
    | exact .refl _ s
    | exact setPoint_scale _ _ s

theorem readScale_frame : HandlerFrame [] readScale := by
  intro b s; unfold readScale; repeat' split
  all_goals exact .refl _ s

/-! ## CAP -/

/-- The blocks that the capture ring changes. -/
abbrev captureParts : List Part := [.cap, .evq]

/-- A change of the ring's own record. -/
theorem cap_frame (c : Capture) (s : State) : Frame captureParts s { s with cap := c } := by
  refine ⟨fun p hp => ?_⟩; cases p <;> first | rfl | simp at hp

theorem raise_capture (k : EventKind) (a b : Int) (s : State) : Frame captureParts s (raise k a b s) :=
  (raise_frame k a b s).mono (by decide)

theorem countPost_frame (s : State) : Frame captureParts s (countPost s) := by
  unfold countPost
  exact Frame.ite (.refl _ s) (Frame.ite (cap_frame _ s) ((cap_frame _ s).trans (raise_capture _ _ _ _)))

theorem writeCapture_frame (s : State) : Frame captureParts s (writeCapture s) := by
  unfold writeCapture
  exact (cap_frame _ s).trans (((raiseAll_frame _ _).mono (by decide)).trans (countPost_frame _))

theorem decimate_frame (s : State) : Frame captureParts s (decimate s) := by
  unfold decimate
  exact Frame.ite (cap_frame _ s) (writeCapture_frame s)

theorem trigger_frame (subject : Int) (s : State) : Frame captureParts s (trigger subject s) := by
  have h : Frame captureParts s
      (raise .captTriggered subject s.view.number.toNat { s with cap := { s.cap with state := .triggered, post := 0 } }) :=
    (cap_frame _ s).trans (raise_capture _ _ _ _)
  unfold trigger
  dsimp only
  split
  · refine Frame.trans ?_ (raise_capture _ _ _ _)
    exact h.trans (cap_frame _ _)
  · exact h

/-- The start of the ring's processing of a snapshot. -/
theorem capTake_frame (j : Jobs) (c : Capture) (s : State) : Frame (.todo :: captureParts) s { s with todo := j, cap := c } := by
  refine ⟨fun p hp => ?_⟩; cases p <;> first | rfl | simp at hp

theorem capProcess_frame (s : State) : Frame (.todo :: captureParts) s (capProcess s) := by
  unfold capProcess
  refine Frame.ite ?_ (.refl _ s)
  dsimp only
  refine (capTake_frame { s.todo with cap := false } (s.cap.update s.view) s).trans ?_
  split
  · exact .refl _ _
  · exact .refl _ _
  · exact (decimate_frame _).mono (by decide)
  · split
    · exact (decimate_frame _).mono (by decide)
    · exact ((trigger_frame _ _).trans (Frame.ite (.refl _ _) (decimate_frame _))).mono (by decide)

theorem captureCmd_frame : HandlerFrame captureParts captureCmd := by
  intro b s
  unfold captureCmd captureStart captureStop captureRearm captureAnswer
  repeat' split
  all_goals first
    | exact .refl _ s
    | exact cap_frame _ s

theorem readCapture_frame : HandlerFrame [] readCapture := by
  intro b s; unfold readCapture; dsimp only; repeat' split
  all_goals exact .refl _ s

/-! ## CLK and EVQ -/

/-- The blocks that the clock's requests change. -/
abbrev clockParts : List Part := [.clk, .evq]

theorem clockTick_frame (s : State) : Frame (.now :: clockParts) s (clockTick s) := by
  unfold clockTick
  refine Frame.trans ?_ ((raiseIf_frame _ _ _ _ _).mono (by decide))
  refine ⟨fun p hp => ?_⟩; cases p <;> first | rfl | simp at hp

theorem timeSet_frame : HandlerFrame clockParts timeSet := by
  intro b s
  unfold timeSet
  split
  · refine ⟨fun p hp => ?_⟩; cases p <;> first | rfl | simp at hp
  · exact .refl _ s

/-- A change of the clock's own record. -/
theorem clk_frame (c : Clk) (s : State) : Frame clockParts s { s with clk := c } := by
  refine ⟨fun p hp => ?_⟩; cases p <;> first | rfl | simp at hp

theorem takeSync_frame (src : SyncSource) (v : BitVec 32) (s : State) : Frame clockParts s (takeSync src v s) := by
  unfold takeSync setClock
  refine (clk_frame { s.clk with count := v, period := s.now, source := src } s).trans ?_
  exact ((raiseIf_frame _ _ _ _ _).trans (raiseIf_frame _ _ _ _ _)).mono (by decide)

theorem timeSync_frame : HandlerFrame clockParts timeSync := by
  intro b s
  unfold timeSync syncAnswer syncA
  repeat' split
  all_goals first
    | exact .refl _ s
    | exact takeSync_frame _ _ s
    | exact (clk_frame _ s).trans (takeSync_frame _ _ _)

theorem evq_frame (q : Evq) (s : State) : Frame [.evq] s { s with evq := q } := by
  refine ⟨fun p hp => ?_⟩; cases p <;> first | rfl | simp at hp

theorem fetchEvents_frame : HandlerFrame [.evq] fetchEvents := by
  intro b s
  unfold fetchEvents
  dsimp only
  repeat' split
  all_goals first
    | exact .refl _ s
    | exact evq_frame _ s

theorem status_frame : HandlerFrame [.evq] status := by
  intro b s
  unfold status
  repeat' split
  all_goals first
    | exact .refl _ s
    | exact evq_frame _ s

/-! ## MBC -/

/-- The blocks that mode changes and RESTART bring to their reset values, and the free values taken. -/
abbrev resetParts : List Part := [.lif, .acq, .out, .mbc, .wsv, .tgd, .hxu, .scm, .evq, .cap, .view, .todo, .free]

theorem runtimeReset_frame (s : State) : Frame resetParts s (runtimeReset s) := by
  refine ⟨fun p hp => ?_⟩; cases p <;> first | rfl | simp at hp

theorem changeMode_frame (m : Mode) (s : State) : Frame [.mbc, .evq] s (changeMode m s) := by
  refine ⟨fun p hp => ?_⟩; cases p <;> first | rfl | simp at hp

theorem leaveConfig_frame (s : State) : Frame resetParts s (leaveConfig s) := by
  refine ⟨fun p hp => ?_⟩; cases p <;> first | rfl | simp at hp

theorem enterConfig_frame (s : State) : Frame resetParts s (enterConfig s) :=
  (runtimeReset_frame s).trans ((changeMode_frame _ _).mono (by decide))

/-- A change of the controller's own record. -/
theorem mbc_frame (m : Mbc) (s : State) : Frame [.mbc] s { s with mbc := m } := by
  refine ⟨fun p hp => ?_⟩; cases p <;> first | rfl | simp at hp

theorem enterLeaving_frame (s : State) : Frame resetParts s (enterLeaving s) := by
  unfold enterLeaving
  refine Frame.then ?_ (eitherOrder_frame (fun t => raise_wells _ _ _ t) emptyStartQueue_frame _) (by decide)
  exact (mbc_frame _ s).mono (by decide)

theorem setMode_frame : HandlerFrame resetParts setMode := by
  intro b s
  unfold setMode setConfig setStandby setSupervise modeAnswer
  repeat' split
  all_goals first
    | exact .refl _ s
    | exact enterConfig_frame s
    | exact leaveConfig_frame s
    | exact enterLeaving_frame s
    | exact (changeMode_frame _ s).mono (by decide)

theorem stage_frame : HandlerFrame [.mbc] stage := by
  intro b s
  unfold stage
  dsimp only
  repeat' split
  all_goals first
    | exact .refl _ s
    | exact mbc_frame _ s

/-- The blocks that the controller changes at a snapshot. -/
abbrev bankParts : List Part := [.mbc, .out, .evq]

theorem activate_frame (s : State) : Frame bankParts s (activate s) := by
  unfold activate
  split
  · exact .refl _ s
  · exact ((mbc_frame _ s).mono (by decide)).trans ((raise_frame _ _ _ _).mono (by decide))

theorem directDemand_frame (s : State) (i : Fin 8) : Frame bankParts s (directDemand s i) :=
  (deliver_frame _ _ s).mono (by decide)

theorem deliverDirect_frame (s : State) : Frame bankParts s (deliverDirect s) := Frame.foldl directDemand_frame _ s

theorem endLeaving_frame (s : State) : Frame bankParts s (endLeaving s) := by
  unfold endLeaving
  exact Frame.ite ((changeMode_frame _ s).mono (by decide)) (.refl _ s)

theorem todo_frame (j : Jobs) (s : State) : Frame [.todo] s { s with todo := j } := by
  refine ⟨fun p hp => ?_⟩; cases p <;> first | rfl | simp at hp

theorem mbcProcess_frame (s : State) : Frame (.todo :: bankParts) s (mbcProcess s) := by
  unfold mbcProcess
  refine Frame.ite ?_ (.refl _ s)
  refine Frame.then ?_ (endLeaving_frame _) (by decide)
  refine Frame.then ?_ (deliverDirect_frame _) (by decide)
  refine Frame.then ?_ (activate_frame _) (by decide)
  exact (todo_frame _ s).mono (by decide)

theorem fillPending_frame (s : State) : Frame (.todo :: bankParts) s (fillPending s) := by
  unfold fillPending
  dsimp only
  refine (mbcProcess_frame s).trans ?_
  split
  · exact (mbc_frame _ _).mono (by decide)
  · exact ((mbc_frame _ _).mono (by decide)).trans ((raise_frame _ _ _ _).mono (by decide))

theorem publishBank_frame : HandlerFrame (.todo :: bankParts) publishBank := by
  intro b s
  unfold publishBank
  dsimp only
  repeat' split
  all_goals first
    | exact .refl _ s
    | exact fillPending_frame s

theorem readBank_frame : HandlerFrame [] readBank := by
  intro b s; unfold readBank; repeat' split
  all_goals exact .refl _ s

theorem resume_frame : HandlerFrame [.mbc, .evq] resume := by
  intro b s
  unfold resume
  repeat' split
  all_goals first
    | exact .refl _ s
    | exact ((mbc_frame _ s).mono (by decide)).trans ((raise_frame _ _ _ _).mono (by decide))

theorem hostExpiry_frame (s : State) : Frame [.now, .mbc, .evq] s (hostExpiry s) := by
  unfold hostExpiry
  split
  · exact .refl _ s
  · refine ⟨fun p hp => ?_⟩; cases p <;> first | rfl | simp at hp

/-! ## ACQ -/

/-- The blocks that a handover changes, the jobs that complete included. -/
abbrev snapshotParts : List Part := [.acq, .out, .mbc, .wsv, .tgd, .hxu, .scm, .evq, .cap, .view, .todo, .free]

theorem convertChannel_frame (scan : ScanBuffer) (s : State) (i : ChannelNo) :
    Frame [.acq, .evq] s (convertChannel scan s i) := by
  unfold convertChannel
  refine Frame.ite (.refl _ s) ?_
  refine Frame.trans ?_ ((raiseAll_frame _ _).mono (by decide))
  refine ⟨fun p hp => ?_⟩; cases p <;> first | rfl | simp at hp

theorem catchUp_frame (s : State) : Frame snapshotParts s (catchUp s) := by
  unfold catchUp
  refine ((mbcProcess_frame s).mono (by decide)).trans (((wsvProcess_frame _).mono (by decide)).trans ?_)
  refine ((tgdProcess_frame _).mono (by decide)).trans (((hxuProcess_frame _).mono (by decide)).trans ?_)
  exact ((scmProcess_frame _).mono (by decide)).trans ((capProcess_frame _).mono (by decide))

theorem countSnapshot_frame (c : Bool) (s : State) : Frame snapshotParts s (countSnapshot c s) := by
  refine ⟨fun p hp => ?_⟩; cases p <;> first | rfl | simp at hp

theorem fixView_frame (s : State) : Frame snapshotParts s (fixView s) := by
  refine ⟨fun p hp => ?_⟩; cases p <;> first | rfl | simp at hp

theorem handover_frame (scan : ScanBuffer) (c : Bool) (s : State) : Frame snapshotParts s (handover scan c s) := by
  unfold handover
  refine (catchUp_frame s).trans ((countSnapshot_frame c _).trans (Frame.trans ?_ (fixView_frame _)))
  exact (Frame.foldl (convertChannel_frame scan) _ _).mono (by decide)

theorem force_frame : HandlerFrame [.acq] force := by
  intro b s
  unfold force
  dsimp only
  repeat' split
  all_goals first
    | exact .refl _ s
    | exact setChannel_frame _ _ s

theorem unforce_frame : HandlerFrame [.acq] unforce := by
  intro b s
  unfold unforce
  dsimp only
  repeat' split
  all_goals first
    | exact .refl _ s
    | exact setChannel_frame _ _ s

theorem trim_frame : HandlerFrame [.acq] trim := by
  intro b s
  unfold trim
  dsimp only
  repeat' split
  all_goals first
    | exact .refl _ s
    | exact setChannel_frame _ _ s

theorem readChannels_frame : HandlerFrame [] readChannels := by
  intro b s; unfold readChannels; repeat' split
  all_goals exact .refl _ s

/-! ## LIF -/

/-- A change of the loop interface's own record. -/
theorem lif_frame (l : Lif) (s : State) : Frame [.lif] s { s with lif := l } := by
  refine ⟨fun p hp => ?_⟩; cases p <;> first | rfl | simp at hp

theorem matchBits_frame (p : Nat) (bits : Word) (s : State) : Frame [.lif] s (matchBits p bits s) := by
  unfold matchBits
  exact Frame.ite (lif_frame _ s) (Frame.ite (lif_frame _ s) (.refl _ s))

theorem confirmCandidate_frame (i : Fin 6) (b : Bool) (s : State) : Frame [.lif, .evq] s (confirmCandidate i b s) := by
  unfold confirmCandidate
  dsimp only
  split
  · exact (lif_frame _ s).mono (by decide)
  · exact ((lif_frame _ s).mono (by decide)).trans ((raise_frame _ _ _ _).mono (by decide))

theorem failCandidate_frame (p : Nat) (s : State) : Frame [.lif] s (failCandidate p s) := by
  unfold failCandidate
  exact Frame.ite (lif_frame _ s) (lif_frame _ s)

theorem judgeCandidate_frame (w : CandidateWords) (s : State) : Frame [.lif, .evq] s (judgeCandidate w s) := by
  unfold judgeCandidate
  repeat' split
  · exact .refl _ s
  · exact confirmCandidate_frame _ _ s
  · exact (failCandidate_frame _ s).mono (by decide)

theorem huntExpiry_frame (s : State) : Frame [.now, .lif] s (huntExpiry s) := by
  unfold huntExpiry
  split
  · exact (reachEnd_mono _ s).trans ((lif_frame _ _).mono (by decide))
  · exact .refl _ s

theorem dwellExpiry_frame (s : State) : Frame [.now, .lif] s (dwellExpiry s) := by
  unfold dwellExpiry
  split
  · exact (reachEnd_mono _ s).trans ((lif_frame _ _).mono (by decide))
  · exact .refl _ s

/-- The blocks that a loss of lock changes. -/
abbrev unlockParts : List Part := [.lif, .tgd, .evq, .free, .out]

theorem leftLocked_frame (why : Int) (s : State) : Frame unlockParts s (leftLocked why s) := by
  unfold leftLocked
  refine (eitherOrder_frame (ps := guardParts) (fun t => ?_) chainReset_frame s).mono (by decide)
  exact (raise_frame _ _ _ t).mono (by decide)

theorem loseFrames_frame (why : Int) (since : Time) (s : State) : Frame unlockParts s (loseFrames why since s) := by
  unfold loseFrames
  dsimp only
  split
  · exact ((lif_frame _ s).mono (by decide)).trans (leftLocked_frame _ _)
  · exact (lif_frame _ s).mono (by decide)

theorem loseSequence_frame (s : State) : Frame unlockParts s (loseSequence s) :=
  ((lif_frame _ s).mono (by decide)).trans (leftLocked_frame _ _)

theorem lineSilence_frame (s : State) : Frame (.now :: unlockParts) s (lineSilence s) := by
  unfold lineSilence
  exact Frame.ite (((reachEnd_frame _ s).mono (by decide)).trans ((loseFrames_frame _ _ _).mono (by decide))) (.refl _ s)

/-- The blocks that the judgement of a frame changes. -/
abbrev judgeParts : List Part := .lif :: snapshotParts

theorem lif_judge (l : Lif) (s : State) : Frame judgeParts s { s with lif := l } := (lif_frame l s).mono (by decide)

theorem countError_frame (k : ErrorKind) (s : State) : Frame judgeParts s (countError k s) := by
  unfold countError
  exact (lif_judge _ s).trans ((raiseIf_frame _ _ _ _ _).mono (by decide))

theorem handOver_frame (s : State) : Frame judgeParts s (handOver s) :=
  ((handover_frame _ _ _).mono (by decide)).trans (lif_judge _ _)

theorem afterFrame_frame (e : Option (Fin 6)) (s : State) : Frame judgeParts s (afterFrame e s) := by
  unfold afterFrame
  exact Frame.ite (handOver_frame s) (.refl _ s)

theorem judgeBadAlign_frame (s : State) : Frame judgeParts s (judgeBadAlign s) := by
  unfold judgeBadAlign
  dsimp only
  split
  · refine Frame.then ?_ (loseFrames_frame _ _ _) (by decide)
    exact (countError_frame .alignment s).trans (lif_judge _ _)
  · refine Frame.trans ?_ (afterFrame_frame _ _)
    exact (countError_frame .alignment s).trans (lif_judge _ _)

theorem judgeOutOfSequence_frame (n : Nat) (s : State) : Frame judgeParts s (judgeOutOfSequence n s) := by
  have h : Frame judgeParts s { countError .sequence s with
      lif := { (countError .sequence s).lif with expected := (validIndex n).map nextIndex } } :=
    (countError_frame .sequence s).trans (lif_judge _ _)
  unfold judgeOutOfSequence
  dsimp only
  split
  · exact Frame.then h (loseSequence_frame _) (by decide)
  · exact h.trans (lif_judge _ _)

theorem takeFlags_frame (i : Fin 6) (a b : Bool) (s : State) : Frame judgeParts s (takeFlags i a b s) := by
  unfold takeFlags
  dsimp only
  refine Frame.then ?_ (raiseIf_frame _ _ _ _ _) (by decide)
  refine Frame.then ?_ (raiseIf_frame _ _ _ _ _) (by decide)
  refine Frame.then ?_ (raiseIf_frame _ _ _ _ _) (by decide)
  exact lif_judge _ s

theorem endBlind_frame (s : State) : Frame judgeParts s (endBlind s) := by
  unfold endBlind
  refine Frame.ite ?_ (.refl _ s)
  refine ⟨fun p hp => ?_⟩; cases p <;> first | rfl | simp at hp

theorem enterLocked_frame (s : State) : Frame judgeParts s (enterLocked s) := by
  unfold enterLocked
  exact (lif_judge _ s).trans (((raise_frame _ _ _ _).mono (by decide)).trans (endBlind_frame _))

theorem qualify_frame (i : Fin 6) (s : State) : Frame judgeParts s (qualify i s) := by
  unfold qualify
  refine Frame.ite (lif_judge _ s) ?_
  exact (lif_judge _ s).trans (Frame.ite (enterLocked_frame _) (.refl _ _))

theorem countCheck_frame (b : Bool) (s : State) : Frame judgeParts s (countCheck b s) := by
  unfold countCheck
  exact Frame.ite (.refl _ s) (countError_frame _ s)

theorem collect_frame (e : Option (Fin 6)) (b : Bool) (i : Fin 6) (w : Vector Word 28) (s : State) :
    Frame judgeParts s (collect e b i w s) := by
  unfold collect
  split
  · exact Frame.trans (lif_judge _ s) (afterFrame_frame _ _)
  · exact qualify_frame i s

theorem judgeInSequence_frame (i : Fin 6) (f : LoopFrame) (s : State) : Frame judgeParts s (judgeInSequence i f s) := by
  unfold judgeInSequence
  refine Frame.trans ?_ (collect_frame _ _ _ _ _)
  refine Frame.trans ?_ (takeFlags_frame _ _ _ _)
  exact Frame.trans (lif_judge _ s) (countCheck_frame _ _)

theorem judgeFramed_frame (f : LoopFrame) (s : State) : Frame judgeParts s (judgeFramed f s) := by
  unfold judgeFramed
  dsimp only
  split
  · exact judgeBadAlign_frame s
  · split
    · exact (lif_judge { s.lif with badAlign := 0 } s).trans (judgeOutOfSequence_frame _ _)
    · exact (lif_judge { s.lif with badAlign := 0 } s).trans (judgeInSequence_frame _ f _)

theorem judgeFrame_frame (f : LoopFrame) (s : State) : Frame judgeParts s (judgeFrame f s) := by
  unfold judgeFrame
  refine Frame.ite (Frame.ite ?_ ?_) (.refl _ s)
  · exact (loseFrames_frame _ _ s).mono (by decide)
  · exact (lif_judge _ s).trans (judgeFramed_frame f _)

/-- The blocks that the expiry of the blind timer changes. -/
abbrev blindParts : List Part := [.now, .lif, .out, .tgd, .evq, .free]

theorem outBlind_frame (s : State) : Frame [.out] s (outBlind s) := by
  unfold outBlind
  refine Frame.ite ?_ (.refl _ s)
  refine ⟨fun p hp => ?_⟩; cases p <;> first | rfl | simp at hp

theorem blindExpiry_frame (s : State) : Frame blindParts s (blindExpiry s) := by
  unfold blindExpiry
  split
  · exact .refl _ s
  · refine Frame.then ?_ (eitherOrder_frame (ps := guardParts) (fun t => (raise_frame _ _ _ t).mono (by decide))
      (takeCause_frame _ _) _) (by decide)
    refine Frame.then ?_ (outBlind_frame _) (by decide)
    exact Frame.then (reachEnd_mono _ s) (lif_frame _ _) (by decide)

theorem scanStart_frame (s : State) : Frame [.now, .lif] s (scanStart s) := by
  unfold scanStart
  split
  · exact (reachEnd_mono _ s).trans ((lif_frame _ _).mono (by decide))
  · exact .refl _ s

theorem frameStart_frame (s : State) : Frame [.now, .lif] s (frameStart s) := by
  unfold frameStart
  split
  · exact (reachEnd_mono _ s).trans ((lif_frame _ _).mono (by decide))
  · exact .refl _ s

theorem readLoop_frame : HandlerFrame [.lif] readLoop := by
  intro b s
  unfold readLoop
  repeat' split
  all_goals first
    | exact .refl _ s
    | exact lif_frame _ s

/-! ## The tables -/

/-- The blocks that hold tables, and what a write changes beside them. -/
abbrev tableParts : List Part := [.lif, .acq, .out, .mbc, .wsv, .tgd, .hxu, .scm, .clk, .evq, .cap]

theorem storeIf_frame {α : Type} {ps : List Part} {r : Option α} {put : α → State} {s : State}
    (h : ∀ a, Frame ps s (put a)) : Frame ps s (storeIf r put s).2 := by
  unfold storeIf
  split
  · exact .refl _ s
  · exact h _

theorem store_frame (t : TableRef) (b : List Byte) (s : State) : Frame tableParts s (t.store b s).2 := by
  have put : ∀ (a : Acq) (o : Out) (v : Wsv) (m : Scm) (h : Hxu) (g : Tgd) (l : Lif) (n : Mbc) (c : Clk) (q : Evq) (k : Capture),
      Frame tableParts s
        { s with acq := a, out := o, wsv := v, scm := m, hxu := h, tgd := g, lif := l, mbc := n, clk := c, evq := q, cap := k } := by
    intros
    refine ⟨fun p hp => ?_⟩; cases p <;> first | rfl | simp at hp
  cases t with
  | curve i =>
    show Frame tableParts s (storeCurve i b s).2
    unfold storeCurve
    split
    · exact .refl _ s
    · exact storeIf_frame fun r => put _ _ _ _ _ _ _ _ _ _ _
  | heatCurve =>
    show Frame tableParts s (storeHeatCurve b s).2
    unfold storeHeatCurve
    split
    · exact .refl _ s
    · exact storeIf_frame fun r => put _ _ _ _ _ _ _ _ _ _ _
  | capture =>
    show Frame tableParts s (storeCapture b s).2
    unfold storeCapture
    split
    · exact .refl _ s
    · split
      · exact .refl _ s
      · exact storeIf_frame fun r => put _ _ _ _ _ _ _ _ _ _ _
  | _ => exact storeIf_frame fun r => put _ _ _ _ _ _ _ _ _ _ _

theorem tableWrite_frame : HandlerFrame tableParts tableWrite := by
  intro b s
  unfold tableWrite writeTable
  dsimp only
  repeat' split
  all_goals first
    | exact .refl _ s
    | exact store_frame _ _ s

theorem tableRead_frame : HandlerFrame [] tableRead := by
  intro b s; unfold tableRead; repeat' split
  all_goals exact .refl _ s

end Sys2Proof.Machine
end

