-- ==== Sys2Proof/Laws/Exec.lean ====
section
/-! SUPPORT. What each command leaves unchanged: `Instr.parts` lists the blocks that a command can change, and `exec_frame` says
that exec changes no other field. -/

namespace Sys2Proof.Machine

theorem hears_frame (s : State) : Frame [.cpt, .mbc] s s.hears := by
  refine ⟨fun p hp => ?_⟩; cases p <;> first | rfl | simp at hp

theorem fillBuffer_frame {ps : List Part} {s : State} (kind : Byte) (r : Request) (out : Answer × State)
    (h : Frame ps s out.2) : Frame (.cpt :: .free :: ps) s (fillBuffer kind r out) := by
  have h' : Frame (.cpt :: .free :: ps) s out.2 := h.mono fun p m => by simp [m]
  refine h'.trans ⟨fun p hp => ?_⟩
  cases p <;> first | rfl | simp at hp

theorem goodFrame_frame {ps : List Part} {h : Handler} (hf : HandlerFrame ps h) (kind : Byte) (r : Request) (s : State) :
    Frame (.cpt :: .mbc :: .free :: ps) s (goodFrame kind h r s) := by
  have hh : Frame (.mbc :: ps ++ [.cpt]) s s.hears := (hears_frame s).mono (by simp)
  unfold goodFrame
  refine Frame.ite ⟨fun p hp => ?_⟩ ?_
  · cases p <;> first | rfl | simp at hp
  · have h1 : Frame (.mbc :: ps ++ [.cpt]) s (h r.payload s.hears).2 := hh.trans ((hf r.payload s.hears).mono fun p m => by simp [m])
    exact (fillBuffer_frame kind r _ h1).mono fun p m => by simp at m ⊢; tauto

theorem receiver_frame (rx : CptRx) (s : State) : Frame [.cpt] s (receiver rx s) := by
  refine ⟨fun p hp => ?_⟩; cases p <;> first | rfl | simp at hp

theorem ident_frame : HandlerFrame [] ident := by
  intro b s; unfold ident; split <;> exact .refl _ s

theorem restart_frame : HandlerFrame [] restart := by
  intro b s; unfold restart; split <;> exact .refl _ s

theorem unknown_frame : HandlerFrame [] unknown := fun _ s => .refl _ s

/-- The blocks that a good frame of some kind can change. -/
abbrev frameParts : List Part :=
  [.cpt, .mbc, .lif, .acq, .out, .wsv, .tgd, .hxu, .scm, .clk, .evq, .cap, .view, .todo, .free]

theorem HandlerFrame.mono {ps qs : List Part} {h : Handler} (hf : HandlerFrame ps h) (sub : ∀ p ∈ ps, p ∈ qs) :
    HandlerFrame qs h := fun b s => (hf b s).mono sub

theorem handlers_frame : ∀ h ∈ handlers, HandlerFrame frameParts h := by
  simp only [handlers, List.cons_append, List.nil_append, List.forall_mem_cons, List.not_mem_nil, false_imp_iff, implies_true,
    and_true]
  refine ⟨ident_frame.mono (by decide), status_frame.mono (by decide), setMode_frame.mono (by decide),
    restart_frame.mono (by decide), tableWrite_frame.mono (by decide), tableRead_frame.mono (by decide),
    stage_frame.mono (by decide), publishBank_frame.mono (by decide), readBank_frame.mono (by decide),
    resume_frame.mono (by decide), wellCmd_frame.mono (by decide), readWells_frame.mono (by decide),
    turbineCmd_frame.mono (by decide), readTurbine_frame.mono (by decide), outputCmd_frame.mono (by decide),
    readOutputs_frame.mono (by decide), force_frame.mono (by decide), unforce_frame.mono (by decide),
    trim_frame.mono (by decide), readChannels_frame.mono (by decide), setLab_frame.mono (by decide),
    ackAlarm_frame.mono (by decide), readScale_frame.mono (by decide), readHeat_frame.mono (by decide),
    clearEnergy_frame.mono (by decide), readLoop_frame.mono (by decide), fetchEvents_frame.mono (by decide),
    captureCmd_frame.mono (by decide), readCapture_frame.mono (by decide), timeSet_frame.mono (by decide),
    timeSync_frame.mono (by decide)⟩

/-- The handler of a kind is one of the list, or answers UNKNOWN. -/
theorem handlerOf_mem (kind : Byte) : handlerOf kind ∈ handlers ∨ handlerOf kind = unknown := by
  unfold handlerOf
  split
  · by_cases h : kind.toNat - 1 < handlers.length
    · exact .inl (by rw [List.getD_eq_getElem _ _ h]; exact List.getElem_mem h)
    · exact .inr (List.getD_eq_default _ _ (by omega))
  · exact .inr rfl

theorem anyFrame_frame (kind : Byte) (r : Request) (s : State) : Frame frameParts s (anyFrame kind r s) := by
  unfold anyFrame
  have h : HandlerFrame frameParts (handlerOf kind) := by
    rcases handlerOf_mem kind with h | h
    · exact handlers_frame _ h
    · rw [h]; exact unknown_frame.mono (by decide)
  exact (goodFrame_frame h kind r s).mono (by decide)

theorem completeFrame_frame (kind : Byte) (r : Request) (crc : Word) (s : State) :
    Frame frameParts s (completeFrame kind r crc s) := by
  unfold completeFrame
  exact Frame.ite (anyFrame_frame kind r s) ((receiver_frame _ s).mono (by decide))

theorem completeBody_frame (body : List Byte) (crc : Word) (s : State) : Frame frameParts s (completeBody body crc s) := by
  unfold completeBody
  split
  · exact completeFrame_frame _ _ _ s
  · exact (receiver_frame _ s).mono (by decide)

theorem judgeByte_frame (b : Byte) (s : State) : Frame frameParts s (judgeByte b s) := by
  have hr : ∀ rx, Frame frameParts s (receiver rx s) := fun rx => (receiver_frame rx s).mono (by decide)
  unfold judgeByte takeBody
  split
  · exact Frame.ite (hr _) (.refl _ s)
  · exact hr _
  · exact hr _
  · exact hr _
  · exact completeBody_frame _ _ s

/-- A byte received moves the receiver, and changes another block only where it completes a good frame. -/
theorem takeByte_frame (b : Byte) (s : State) : Frame frameParts s (takeByte b s) :=
  Frame.trans (Frame.ite ((receiver_frame .hunt s).mono (by decide)) (.refl _ s)) (judgeByte_frame b _)

theorem abandonFrame_frame (s : State) : Frame [.now, .cpt] s (abandonFrame s) := by
  unfold abandonFrame
  split
  · exact .refl _ s
  · exact ((reachEnd_frame _ s).mono (by decide)).trans ((receiver_frame .hunt _).mono (by decide))

theorem restartNow_frame (s : State) : Frame (.cpt :: resetParts) s (restartNow s) := by
  refine ⟨fun p hp => ?_⟩; cases p <;> first | rfl | simp at hp

theorem emptyBuffer_frame (e : Exchange) (s : State) : Frame (.cpt :: resetParts) s (emptyBuffer e s) := by
  unfold emptyBuffer
  refine Frame.ite (restartNow_frame s) ⟨fun p hp => ?_⟩
  cases p <;> first | rfl | simp at hp

theorem replyEnds_frame (s : State) : Frame (.now :: .cpt :: resetParts) s (replyEnds s) := by
  unfold replyEnds
  split
  · exact .refl _ s
  · exact ((reachEnd_frame _ s).mono (by decide)).trans ((emptyBuffer_frame _ _).mono (by decide))

theorem restartEnds_frame (s : State) : Frame (.now :: .cpt :: resetParts) s (restartEnds s) := by
  unfold restartEnds
  split
  · exact .refl _ s
  · exact Frame.ite (((reachEnd_frame _ s).mono (by decide)).trans ((restartNow_frame _).mono (by decide))) (.refl _ s)

theorem holdReset_frame (s : State) : Frame [.held, .evq, .lif, .cpt] s (holdReset s) := by
  refine ⟨fun p hp => ?_⟩; cases p <;> first | rfl | simp at hp

/-- Every block and the time base: all but the model's own queue and its count of free values. -/
abbrev powerParts : List Part :=
  [.held, .now, .straps, .lif, .acq, .out, .mbc, .wsv, .tgd, .hxu, .scm, .clk, .evq, .cap, .cpt, .view, .todo]

theorem powerOn_frame (straps : BitVec 2) (s : State) : Frame powerParts s (powerOn straps s) := by
  refine ⟨fun p hp => ?_⟩; cases p <;> first | rfl | simp at hp

theorem live_frame {ps : List Part} {s t : State} {f : State → State} (h : Frame ps s (f s)) (e : live s f = .next t) :
    Frame ps s t := by
  have ht : (if s.held then s else f s) = t := by simpa [live] using e
  rw [← ht]
  exact Frame.ite (.refl _ s) h

/-- The blocks that a command can change. -/
def Instr.parts : Instr → List Part
  | .ident _ => .cpt :: .mbc :: .free :: []
  | .status _ => .cpt :: .mbc :: .free :: [.evq]
  | .statusClear _ => .cpt :: .mbc :: .free :: [.evq]
  | .setModeConfig _ => .cpt :: .mbc :: .free :: resetParts
  | .setModeStandby _ => .cpt :: .mbc :: .free :: resetParts
  | .setModeSupervise _ => .cpt :: .mbc :: .free :: resetParts
  | .restart _ => .cpt :: .mbc :: .free :: []
  | .tableWrite _ => .cpt :: .mbc :: .free :: tableParts
  | .tableWriteWell _ => .cpt :: .mbc :: .free :: tableParts
  | .tableWriteClass _ => .cpt :: .mbc :: .free :: tableParts
  | .tableWriteTiming _ => .cpt :: .mbc :: .free :: tableParts
  | .tableWriteCapture _ => .cpt :: .mbc :: .free :: tableParts
  | .tableRead _ => .cpt :: .mbc :: .free :: []
  | .stage _ => .cpt :: .mbc :: .free :: [.mbc]
  | .publish _ => .cpt :: .mbc :: .free :: .todo :: bankParts
  | .readBank _ => .cpt :: .mbc :: .free :: []
  | .resume _ => .cpt :: .mbc :: .free :: [.mbc, .evq]
  | .wellCmdStart _ => .cpt :: .mbc :: .free :: wellParts
  | .wellCmdStop _ => .cpt :: .mbc :: .free :: wellParts
  | .wellCmdClear _ => .cpt :: .mbc :: .free :: wellParts
  | .wellCmdServiceOut _ => .cpt :: .mbc :: .free :: wellParts
  | .wellCmdServiceIn _ => .cpt :: .mbc :: .free :: wellParts
  | .wellCmdHold _ => .cpt :: .mbc :: .free :: wellParts
  | .wellCmdRelease _ => .cpt :: .mbc :: .free :: wellParts
  | .readWells _ => .cpt :: .mbc :: .free :: []
  | .turbineCmdTrip _ => .cpt :: .mbc :: .free :: guardParts
  | .turbineCmdReset _ => .cpt :: .mbc :: .free :: guardParts
  | .turbineCmdRelease _ => .cpt :: .mbc :: .free :: guardParts
  | .readTurbine _ => .cpt :: .mbc :: .free :: []
  | .outputCmdServiceOut _ => .cpt :: .mbc :: .free :: [.out]
  | .outputCmdServiceIn _ => .cpt :: .mbc :: .free :: [.out]
  | .readOutputs _ => .cpt :: .mbc :: .free :: []
  | .force _ => .cpt :: .mbc :: .free :: [.acq]
  | .unforce _ => .cpt :: .mbc :: .free :: [.acq]
  | .trim _ => .cpt :: .mbc :: .free :: [.acq]
  | .readChannels _ => .cpt :: .mbc :: .free :: []
  | .setLab _ => .cpt :: .mbc :: .free :: scaleParts
  | .ackAlarm _ => .cpt :: .mbc :: .free :: scaleParts
  | .readScale _ => .cpt :: .mbc :: .free :: []
  | .readHeat _ => .cpt :: .mbc :: .free :: []
  | .clearEnergy _ => .cpt :: .mbc :: .free :: heatParts
  | .readLoop _ => .cpt :: .mbc :: .free :: [.lif]
  | .readLoopClear _ => .cpt :: .mbc :: .free :: [.lif]
  | .fetchEvents _ => .cpt :: .mbc :: .free :: [.evq]
  | .captureCmdStart _ => .cpt :: .mbc :: .free :: captureParts
  | .captureCmdStop _ => .cpt :: .mbc :: .free :: captureParts
  | .captureCmdRearm _ => .cpt :: .mbc :: .free :: captureParts
  | .readCapture _ => .cpt :: .mbc :: .free :: []
  | .timeSet _ => .cpt :: .mbc :: .free :: clockParts
  | .timeSyncA _ => .cpt :: .mbc :: .free :: clockParts
  | .timeSyncB _ => .cpt :: .mbc :: .free :: clockParts
  | .restartEffect => .now :: .cpt :: resetParts
  | .unknownKind _ _ => frameParts
  | .frameOverrunDiscard _ _ => frameParts
  | .crcMismatchDiscard _ _ _ => frameParts
  | .badLenDiscard _ => frameParts
  | .framingErrorAbandon => [.cpt]
  | .gapAbandon => [.now, .cpt]
  | .replySent => .now :: .cpt :: resetParts
  | .candidateMatch _ _ => [.lif]
  | .candidateConfirm _ => [.lif, .evq]
  | .candidateFail _ => [.lif, .evq]
  | .huntIntervalExpiry => [.now, .lif]
  | .searchDwellExpiry => [.now, .lif]
  | .frameJudge _ => judgeParts
  | .lineSilenceTimeout => .now :: unlockParts
  | .blindTimerExpiry => blindParts
  | .outboundScanStart => [.now, .lif]
  | .outboundFrameStart => [.now, .lif]
  | .mbcProcessSnapshot => .todo :: bankParts
  | .hostTimerExpiry => [.now, .mbc, .evq]
  | .wsvProcessSnapshot => .todo :: wellParts
  | .startTimerExpiry _ => .now :: wellParts
  | .staggerTimerExpiry => .now :: wellParts
  | .tgdProcessSnapshot => .todo :: guardParts
  | .permissiveHoldExpiry _ => .now :: guardParts
  | .hxuProcessSnapshot => .todo :: heatParts
  | .scmProcessSnapshot => .todo :: scaleParts
  | .capProcessSnapshot => .todo :: captureParts
  | .clockAdvance => .now :: clockParts
  | .resetPinLow => [.held, .evq, .lif, .cpt]
  | .powerOnReset _ => powerParts

/-- A command changes no block that `Instr.parts` does not list. -/
theorem exec_frame {c : Instr} {s t : State} (h : exec c s = .next t) : Frame (Instr.parts c) s t := by
  cases c with
  | ident r => exact live_frame (goodFrame_frame ident_frame _ r s) h
  | status r => exact live_frame (goodFrame_frame status_frame _ r s) h
  | statusClear r => exact live_frame (goodFrame_frame status_frame _ r s) h
  | setModeConfig r => exact live_frame (goodFrame_frame setMode_frame _ r s) h
  | setModeStandby r => exact live_frame (goodFrame_frame setMode_frame _ r s) h
  | setModeSupervise r => exact live_frame (goodFrame_frame setMode_frame _ r s) h
  | restart r => exact live_frame (goodFrame_frame restart_frame _ r s) h
  | tableWrite r => exact live_frame (goodFrame_frame tableWrite_frame _ r s) h
  | tableWriteWell r => exact live_frame (goodFrame_frame tableWrite_frame _ r s) h
  | tableWriteClass r => exact live_frame (goodFrame_frame tableWrite_frame _ r s) h
  | tableWriteTiming r => exact live_frame (goodFrame_frame tableWrite_frame _ r s) h
  | tableWriteCapture r => exact live_frame (goodFrame_frame tableWrite_frame _ r s) h
  | tableRead r => exact live_frame (goodFrame_frame tableRead_frame _ r s) h
  | stage r => exact live_frame (goodFrame_frame stage_frame _ r s) h
  | publish r => exact live_frame (goodFrame_frame publishBank_frame _ r s) h
  | readBank r => exact live_frame (goodFrame_frame readBank_frame _ r s) h
  | resume r => exact live_frame (goodFrame_frame resume_frame _ r s) h
  | wellCmdStart r => exact live_frame (goodFrame_frame wellCmd_frame _ r s) h
  | wellCmdStop r => exact live_frame (goodFrame_frame wellCmd_frame _ r s) h
  | wellCmdClear r => exact live_frame (goodFrame_frame wellCmd_frame _ r s) h
  | wellCmdServiceOut r => exact live_frame (goodFrame_frame wellCmd_frame _ r s) h
  | wellCmdServiceIn r => exact live_frame (goodFrame_frame wellCmd_frame _ r s) h
  | wellCmdHold r => exact live_frame (goodFrame_frame wellCmd_frame _ r s) h
  | wellCmdRelease r => exact live_frame (goodFrame_frame wellCmd_frame _ r s) h
  | readWells r => exact live_frame (goodFrame_frame readWells_frame _ r s) h
  | turbineCmdTrip r => exact live_frame (goodFrame_frame turbineCmd_frame _ r s) h
  | turbineCmdReset r => exact live_frame (goodFrame_frame turbineCmd_frame _ r s) h
  | turbineCmdRelease r => exact live_frame (goodFrame_frame turbineCmd_frame _ r s) h
  | readTurbine r => exact live_frame (goodFrame_frame readTurbine_frame _ r s) h
  | outputCmdServiceOut r => exact live_frame (goodFrame_frame outputCmd_frame _ r s) h
  | outputCmdServiceIn r => exact live_frame (goodFrame_frame outputCmd_frame _ r s) h
  | readOutputs r => exact live_frame (goodFrame_frame readOutputs_frame _ r s) h
  | force r => exact live_frame (goodFrame_frame force_frame _ r s) h
  | unforce r => exact live_frame (goodFrame_frame unforce_frame _ r s) h
  | trim r => exact live_frame (goodFrame_frame trim_frame _ r s) h
  | readChannels r => exact live_frame (goodFrame_frame readChannels_frame _ r s) h
  | setLab r => exact live_frame (goodFrame_frame setLab_frame _ r s) h
  | ackAlarm r => exact live_frame (goodFrame_frame ackAlarm_frame _ r s) h
  | readScale r => exact live_frame (goodFrame_frame readScale_frame _ r s) h
  | readHeat r => exact live_frame (goodFrame_frame readHeat_frame _ r s) h
  | clearEnergy r => exact live_frame (goodFrame_frame clearEnergy_frame _ r s) h
  | readLoop r => exact live_frame (goodFrame_frame readLoop_frame _ r s) h
  | readLoopClear r => exact live_frame (goodFrame_frame readLoop_frame _ r s) h
  | fetchEvents r => exact live_frame (goodFrame_frame fetchEvents_frame _ r s) h
  | captureCmdStart r => exact live_frame (goodFrame_frame captureCmd_frame _ r s) h
  | captureCmdStop r => exact live_frame (goodFrame_frame captureCmd_frame _ r s) h
  | captureCmdRearm r => exact live_frame (goodFrame_frame captureCmd_frame _ r s) h
  | readCapture r => exact live_frame (goodFrame_frame readCapture_frame _ r s) h
  | timeSet r => exact live_frame (goodFrame_frame timeSet_frame _ r s) h
  | timeSyncA r => exact live_frame (goodFrame_frame timeSync_frame _ r s) h
  | timeSyncB r => exact live_frame (goodFrame_frame timeSync_frame _ r s) h
  | restartEffect => exact live_frame (restartEnds_frame s) h
  | unknownKind k r => exact live_frame (anyFrame_frame k r s) h
  | frameOverrunDiscard k r => exact live_frame (anyFrame_frame k r s) h
  | crcMismatchDiscard k r c => exact live_frame (completeFrame_frame k r c s) h
  | badLenDiscard n => exact live_frame (takeByte_frame n s) h
  | framingErrorAbandon => exact live_frame (receiver_frame .hunt s) h
  | gapAbandon => exact live_frame (abandonFrame_frame s) h
  | replySent => exact live_frame (replyEnds_frame s) h
  | candidateMatch p b => exact live_frame (matchBits_frame p b s) h
  | candidateConfirm w => exact live_frame (judgeCandidate_frame w s) h
  | candidateFail w => exact live_frame (judgeCandidate_frame w s) h
  | huntIntervalExpiry => exact live_frame (huntExpiry_frame s) h
  | searchDwellExpiry => exact live_frame (dwellExpiry_frame s) h
  | frameJudge f => exact live_frame (judgeFrame_frame f s) h
  | lineSilenceTimeout => exact live_frame (lineSilence_frame s) h
  | blindTimerExpiry => exact live_frame (blindExpiry_frame s) h
  | outboundScanStart => exact live_frame (scanStart_frame s) h
  | outboundFrameStart => exact live_frame (frameStart_frame s) h
  | mbcProcessSnapshot => exact live_frame (mbcProcess_frame s) h
  | hostTimerExpiry => exact live_frame (hostExpiry_frame s) h
  | wsvProcessSnapshot => exact live_frame (wsvProcess_frame s) h
  | startTimerExpiry i => exact live_frame (startExpiry_frame i s) h
  | staggerTimerExpiry => exact live_frame (staggerExpiry_frame s) h
  | tgdProcessSnapshot => exact live_frame (tgdProcess_frame s) h
  | permissiveHoldExpiry st => exact live_frame (holdExpiry_frame st s) h
  | hxuProcessSnapshot => exact live_frame (hxuProcess_frame s) h
  | scmProcessSnapshot => exact live_frame (scmProcess_frame s) h
  | capProcessSnapshot => exact live_frame (capProcess_frame s) h
  | clockAdvance => exact live_frame (clockTick_frame s) h
  | resetPinLow => exact Host.Outcome.next.inj h ▸ holdReset_frame s
  | powerOnReset b => exact Host.Outcome.next.inj h ▸ powerOn_frame b s

end Sys2Proof.Machine
end

