-- ==== Sys2Proof/Laws/Ops.lean ====
section
/-! SUPPORT. What the shared operations do, each said once: raising an event, the words of the ring, a demand update, taking a
good frame, the rounding rules. -/

namespace Sys2Proof.Machine

/-! ## Raising an event -/

theorem Evq.append_length (q : Evq) (e : Entry) (h : q.queue.length ≤ 64) : (q.append e).queue.length ≤ 64 := by
  unfold Evq.append
  split
  · simp; omega
  · simp [List.length_append, List.length_tail]; omega

/-- The queue keeps to its 64 entries. -/
theorem Evq.take_length (q : Evq) (e : Entry) (h : q.queue.length ≤ 64) : (q.take e).queue.length ≤ 64 := by
  unfold Evq.take Evq.judge Evq.markSummary
  dsimp only
  split
  · exact Evq.append_length _ e h
  · exact h

/-- The line after a judgement is as R160 gives it. -/
theorem Evq.judge_line (q : Evq) : q.judge.attnLow = attention q.judge.queue q.judge.classes := rfl

/-- The line after an event is as R160 gives it. -/
theorem Evq.take_line (q : Evq) (e : Entry) : (q.take e).attnLow = attention (q.take e).queue (q.take e).classes := rfl

/-- The enables of every class are as before an event. -/
theorem Evq.take_enables (q : Evq) (e : Entry) (c : Fin 9) :
    (q.take e).classes[c].log = q.classes[c].log ∧ (q.take e).classes[c].attend = q.classes[c].attend := by
  have h : (q.take e).classes = (q.markSummary e.kind.cls).classes := by
    unfold Evq.take Evq.judge Evq.append
    dsimp only
    split
    · split <;> rfl
    · rfl
  rw [h]
  unfold Evq.markSummary
  by_cases hc : e.kind.cls = c
  · subst hc; simp
  · have : (e.kind.cls : Nat) ≠ c := fun k => hc (Fin.ext k)
    simp [this]

/-! ## The words of the ring -/

theorem Memory.wfFrom_mono {lo hi : Nat} (h : lo ≤ hi) : ∀ {m : Memory}, Memory.wfFrom hi m = true → Memory.wfFrom lo m = true
  | [], _ => rfl
  | (a, v) :: m, k => by
    simp only [Memory.wfFrom, Bool.and_eq_true, decide_eq_true_eq] at k ⊢
    exact ⟨⟨by omega, k.1.2⟩, k.2⟩

theorem Memory.write_wfFrom (a : Nat) (v : Word) : ∀ (lo : Nat) (m : Memory), lo ≤ a → Memory.wfFrom lo m = true →
    Memory.wfFrom lo (m.write a v) = true
  | lo, [], hlo, _ => by
    unfold Memory.write
    split
    · rfl
    · simp only [Memory.wfFrom, Bool.and_eq_true, decide_eq_true_eq]
      exact ⟨⟨hlo, by assumption⟩, trivial⟩
  | lo, (b, w) :: m, hlo, k => by
    simp only [Memory.wfFrom, Bool.and_eq_true, decide_eq_true_eq] at k
    unfold Memory.write
    split
    · split
      · simp only [Memory.wfFrom, Bool.and_eq_true, decide_eq_true_eq]; exact k
      · simp only [Memory.wfFrom, Bool.and_eq_true, decide_eq_true_eq]
        exact ⟨⟨hlo, by assumption⟩, ⟨by omega, k.1.2⟩, k.2⟩
    · split
      · split
        · exact Memory.wfFrom_mono (by omega) k.2
        · simp only [Memory.wfFrom, Bool.and_eq_true, decide_eq_true_eq]
          refine ⟨⟨hlo, by assumption⟩, ?_⟩
          have : a = b := by assumption
          rw [this]; exact k.2
      · simp only [Memory.wfFrom, Bool.and_eq_true, decide_eq_true_eq]
        exact ⟨k.1, Memory.write_wfFrom a v (b + 1) m (by omega) k.2⟩

/-- A write keeps the canonical form. -/
theorem Memory.write_wf {m : Memory} (a : Nat) (v : Word) (h : m.wf = true) : (m.write a v).wf = true :=
  Memory.write_wfFrom a v 0 m (Nat.zero_le a) h

/-- A record keeps the canonical form. -/
theorem Memory.writeRecord_wf : ∀ (ws : List Word) {m : Memory} (a : Nat), m.wf = true → (m.writeRecord a ws).wf = true
  | [], _, _, h => h
  | w :: ws, _, a, h => Memory.writeRecord_wf ws ((a + 1) % 4096) (Memory.write_wf a w h)

/-- The ring after power-on is in its canonical form. -/
theorem reset_ring_wf : State.reset.cap.ring.wf = true := rfl

theorem Memory.inRing_cons {b : Nat} {w : Word} {m : Memory} :
    Memory.inRing ((b, w) :: m) = true ↔ b < 4096 ∧ Memory.inRing m = true := by
  unfold Memory.inRing
  rw [List.all_cons, Bool.and_eq_true, decide_eq_true_eq]

theorem Memory.write_inRing {a : Nat} (v : Word) (ha : a < 4096) : ∀ {m : Memory}, m.inRing = true →
    (m.write a v).inRing = true
  | [], _ => by
    unfold Memory.write
    split
    · rfl
    · exact Memory.inRing_cons.mpr ⟨ha, rfl⟩
  | (b, w) :: m, h => by
    have h' := Memory.inRing_cons.mp h
    unfold Memory.write
    split
    · split
      · exact h
      · exact Memory.inRing_cons.mpr ⟨ha, h⟩
    · split
      · split
        · exact h'.2
        · exact Memory.inRing_cons.mpr ⟨ha, h'.2⟩
      · exact Memory.inRing_cons.mpr ⟨h'.1, Memory.write_inRing v ha h'.2⟩

/-- A record keeps to the 4096 words. -/
theorem Memory.writeRecord_inRing : ∀ (ws : List Word) {m : Memory} {a : Nat}, a < 4096 → m.inRing = true →
    (m.writeRecord a ws).inRing = true
  | [], _, _, _, h => h
  | w :: ws, _, _, ha, h => Memory.writeRecord_inRing ws (Nat.mod_lt _ (by decide)) (Memory.write_inRing w ha h)

/-- Below every offset listed a word reads 0. -/
theorem Memory.read_below {a lo : Nat} (h : a < lo) : ∀ {m : Memory}, Memory.wfFrom lo m = true → m.read a = 0
  | [], _ => rfl
  | (b, v) :: m, k => by
    simp only [Memory.wfFrom, Bool.and_eq_true, decide_eq_true_eq] at k
    unfold Memory.read
    rw [if_neg (by omega)]
    exact Memory.read_below (by omega) k.2

theorem Memory.read_write_from (a c : Nat) (v : Word) : ∀ (lo : Nat) (m : Memory), Memory.wfFrom lo m = true →
    (m.write a v).read c = if a = c then v else m.read c
  | _, [], _ => by
    unfold Memory.write
    split
    · simp_all [Memory.read]
    · simp [Memory.read]
  | lo, (b, w) :: m, k => by
    simp only [Memory.wfFrom, Bool.and_eq_true, decide_eq_true_eq] at k
    unfold Memory.write
    split
    · split
      · split
        · subst_vars
          exact Memory.read_below (lo := b) (by omega) (by
            simp only [Memory.wfFrom, Bool.and_eq_true, decide_eq_true_eq]
            exact ⟨⟨Nat.le_refl _, k.1.2⟩, k.2⟩)
        · rfl
      · rw [Memory.read]
    · split
      · subst_vars
        split
        · split
          · subst_vars; exact Memory.read_below (Nat.lt_succ_self _) k.2
          · rw [Memory.read, if_neg (by assumption)]
        · rw [Memory.read]
          split
          · rfl
          · rw [Memory.read, if_neg (by assumption)]
      · rw [Memory.read, Memory.read, Memory.read_write_from a c v (b + 1) m k.2]
        split
        · rw [if_neg (by omega)]
        · rfl

/-- A word written reads back, and every other word reads as before. -/
theorem Memory.read_write {m : Memory} (h : m.wf = true) (a c : Nat) (v : Word) :
    (m.write a v).read c = if a = c then v else m.read c := Memory.read_write_from a c v 0 m h

theorem Memory.readRecord_length (m : Memory) : ∀ (n a : Nat), (m.readRecord a n).length = n
  | 0, _ => rfl
  | n + 1, a => by rw [Memory.readRecord, List.length_cons, Memory.readRecord_length m n]

/-! ## Demand updates -/

/-- A demand brought into range is 0 or 1 for a discrete output, and lies in 0..1000 for every output (R41). -/
theorem Source.inRange_bounds (src : Source) (v : Int) : 0 ≤ src.inRange v ∧ src.inRange v ≤ 1000 := by
  unfold Source.inRange clamp
  split <;> repeat' split
  all_goals omega

/-- Two outputs that differ at most in the issued value and the rise mark. -/
abbrev Output.alike (o p : Output) : Prop := p.cfg = o.cfg ∧ p.outOfService = o.outOfService ∧ p.demand = o.demand

theorem Output.follow_alike (o : Output) : o.alike o.follow := by
  unfold Output.follow
  repeat' split
  all_goals exact ⟨rfl, rfl, rfl⟩

theorem Output.fallOnly_alike (o : Output) : o.alike o.fallOnly := by
  unfold Output.fallOnly
  split <;> exact ⟨rfl, rfl, rfl⟩

theorem Output.act_alike (mode : Mode) (o : Output) : o.alike (o.act mode) := by
  cases mode
  · exact ⟨rfl, rfl, rfl⟩
  · exact o.fallOnly_alike
  · exact o.follow_alike
  · exact o.follow_alike

/-- A demand update records the demand brought into range, and changes beside it at most the issued value and the rise mark. -/
theorem Output.update_alike (mode : Mode) (fs : Bool) (v : Int) (o : Output) :
    Output.alike { o with demand := o.cfg.source.inRange v } (o.update mode fs v) := by
  unfold Output.update
  dsimp only
  split
  · exact ⟨rfl, rfl, rfl⟩
  · exact Output.act_alike _ _

/-! ## Taking a good frame -/

/-- A part that is ready takes the request. -/
theorem goodFrame_taken {s : State} (kind : Byte) (h : Handler) (r : Request) (hb : s.cpt.buffer = none) :
    goodFrame kind h r s = fillBuffer kind r (h r.payload s.hears) := by simp [goodFrame, hb]

/-- A full buffer discards the frame. -/
theorem goodFrame_full {s : State} (kind : Byte) (h : Handler) (r : Request) (hb : s.cpt.buffer ≠ none) :
    goodFrame kind h r s = { s.hears with cpt := { s.hears.cpt with overrun := true } } := by
  rw [goodFrame, if_pos (Option.isSome_iff_ne_none.mpr hb)]

/-- Out of reset the effect takes place. -/
theorem live_next {s : State} (f : State → State) (h : s.held = false) : live s f = .next (f s) := by simp [live, h]

/-- In reset nothing changes. -/
theorem live_held {s : State} (f : State → State) (h : s.held = true) : live s f = .next s := by simp [live, h]

/-! ## The loop's times (R1) -/

/-- The frame times of Table 1-1: 7.68 ms halved by the rate code. -/
theorem frameUs_eq (r : Rate) : frameUs r = 7680 / 2 ^ r.val := by revert r; decide

/-- A frame is 480 bits. -/
theorem frameBits_length (f : LoopFrame) : (frameBits f).length = 480 := by
  simp [frameBits, frameWords, bitsSent, List.length_flatMap]

/-- Bits that never differ from the level before them have no last change. -/
theorem lastChange_none {level : Bool} {bs : List Bool} : lastChange level bs = none ↔ ∀ b ∈ bs, b = level := by
  induction bs generalizing level with
  | nil => simp [lastChange]
  | cons b bs ih =>
    simp only [lastChange, List.forall_mem_cons]
    cases h : lastChange b bs with
    | some n =>
      have hn : ¬∀ c ∈ bs, c = b := fun k => by simp [ih.mpr k] at h
      simp only [reduceCtorEq, false_iff, not_and]
      rintro rfl; exact hn
    | none =>
      have := ih.mp h
      by_cases e : b = level <;> simp_all

/-- The last change: the bit there differs from the one before it, and every later bit is as the one before it. -/
theorem lastChange_some {level : Bool} {bs : List Bool} {n : Nat} : lastChange level bs = some n ↔
    n < bs.length ∧ (level :: bs)[n + 1]? ≠ (level :: bs)[n]? ∧
      ∀ m, n < m → m < bs.length → (level :: bs)[m + 1]? = (level :: bs)[m]? := by
  induction bs generalizing level n with
  | nil => simp [lastChange]
  | cons b bs ih =>
    simp only [lastChange]
    constructor
    · intro h
      cases k : lastChange b bs with
      | some j =>
        simp only [k, Option.some.injEq] at h
        subst h
        obtain ⟨h1, h2, h3⟩ := ih.mp k
        refine ⟨by simpa using h1, by simpa using h2, fun m hm hl => ?_⟩
        obtain ⟨m, rfl⟩ : ∃ k, m = k + 1 := ⟨m - 1, by omega⟩
        simpa using h3 m (by omega) (by simpa using hl)
      | none =>
        simp only [k] at h
        split at h
        · simp at h
        · next e =>
          simp only [Option.some.injEq] at h
          subst h
          refine ⟨by simp, by simpa using e, fun m hm hl => ?_⟩
          have hb := lastChange_none.mp k
          obtain ⟨m, rfl⟩ : ∃ k, m = k + 1 := ⟨m - 1, by omega⟩
          have hl' : m < bs.length := by simpa using hl
          have c : ∀ i, i < (b :: bs).length → (b :: bs)[i]? = some b := fun i hi => by
            rw [List.getElem?_eq_getElem hi]
            congr 1
            have := List.getElem_mem hi
            rcases List.mem_cons.mp this with h | h
            · exact h
            · exact hb _ h
          show (b :: bs)[m + 1]? = (b :: bs)[m]?
          rw [c _ (by simp; omega), c _ (by simp; omega)]
    · rintro ⟨h1, h2, h3⟩
      cases n with
      | zero =>
        have k : lastChange b bs = none := lastChange_none.mpr (by
          intro c hc
          obtain ⟨i, hi, rfl⟩ := List.mem_iff_getElem.mp hc
          have : ∀ j, j < bs.length + 1 → (b :: bs)[j]? = some b := by
            intro j hj
            induction j with
            | zero => rfl
            | succ j ihj => exact (h3 (j + 1) (by omega) (by simpa using hj)).trans (ihj (by omega))
          have := this (i + 1) (by omega)
          simpa [List.getElem?_eq_getElem hi] using this)
        have e : b ≠ level := by simpa using h2
        simp [k, e]
      | succ n =>
        have k : lastChange b bs = some n := ih.mpr ⟨by simpa using h1, by simpa using h2, fun m hm hl => by
          simpa using h3 (m + 1) (by omega) (by simpa using hl)⟩
        simp [k]

/-- Bit n of a frame: word n / 16, most significant bit first (R1). -/
theorem frameBits_get (f : LoopFrame) (n : Nat) (h : n < 480) : (frameBits f)[n]? =
    some ((if n / 16 = 0 then f.align else (f.slots[n / 16 - 1]?).getD f.service).getLsbD (15 - n % 16)) := by
  have key : ∀ (ws : List Word) (n : Nat), n / 16 < ws.length →
      (ws.flatMap bitsSent)[n]? = (ws[n / 16]?).map fun w => w.getLsbD (15 - n % 16) := by
    intro ws
    induction ws with
    | nil => simp
    | cons w ws ih =>
      intro n hn
      have hl : (bitsSent w).length = 16 := by simp [bitsSent]
      rw [List.flatMap_cons]
      by_cases hk : n < 16
      · rw [List.getElem?_append_left (by omega), Nat.div_eq_of_lt hk, Nat.mod_eq_of_lt hk]
        simp only [bitsSent, List.getElem?_map, List.getElem?_range hk, Option.map_some, List.getElem?_cons_zero]
        simp [BitVec.getMsbD, hk]
      · have e : n / 16 = (n - 16) / 16 + 1 := by omega
        have e' : n % 16 = (n - 16) % 16 := by omega
        rw [List.getElem?_append_right (by omega), hl, e, e', List.getElem?_cons_succ]
        exact ih _ (by simp at hn; omega)
  rw [frameBits, key _ _ (by simp [frameWords]; omega)]
  rcases Nat.eq_zero_or_pos (n / 16) with h0 | h0
  · simp [h0, frameWords]
  · obtain ⟨k, hk⟩ : ∃ k, n / 16 = k + 1 := ⟨n / 16 - 1, by omega⟩
    have hk28 : k ≤ 28 := by omega
    rw [hk]
    simp only [frameWords, List.cons_append, List.getElem?_cons_succ]
    rcases Nat.lt_or_eq_of_le hk28 with hlt | rfl
    · rw [List.getElem?_append_left (by simpa using hlt)]
      simp [hlt]
    · rw [List.getElem?_append_right (by simp)]
      simp

/-- The bits of a word, most significant first (R1). -/
theorem bitsSent_get (w : Word) (n : Nat) (h : n < 16) : (bitsSent w)[n]? = some (w.getLsbD (15 - n)) := by
  simp [bitsSent, BitVec.getMsbD, h]

/-- What `Lif.edgeAfter`, which is irreducible because a frame has 480 bits, stands for. -/
theorem Lif.edgeAfter_eq {l : Lif} {now : Time} {count : Nat} {level : Bool} {bits : List Bool} :
    l.edgeAfter now count level bits = l.edgeAt now count (lastChange level bits) := by unfold Lif.edgeAfter; rfl

/-- Bits through which the line's level never changes leave the last transition where it was (R13). -/
theorem Lif.edgeAfter_none {l : Lif} {now : Time} {count : Nat} {level : Bool} {bits : List Bool}
    (h : lastChange level bits = none) : l.edgeAfter now count level bits = l.edge :=
  Lif.edgeAfter_eq.trans (congrArg (l.edgeAt now count) h)

/-- The last transition stands where the last changed bit began, at the rate's bit time before the end of the bits (R13). -/
theorem Lif.edgeAfter_some {l : Lif} {now : Time} {count n : Nat} {level : Bool} {bits : List Bool}
    (h : lastChange level bits = some n) :
    l.edgeAfter now count level bits = now - BitVec.ofNat 48 ((count - n) * bitUs l.selected) :=
  Lif.edgeAfter_eq.trans (congrArg (l.edgeAt now count) h)

/-- What `Lif.fellSilent`, which is irreducible because a frame has 480 bits, stands for. -/
theorem Lif.fellSilent_eq {l : Lif} {f : LoopFrame} {now : Time} :
    l.fellSilent f now = silentUntil l.selected (elapsed l.edge now) (firstChange l.level (frameBits f)) := by
  unfold Lif.fellSilent; rfl

/-- The first change: the bit there differs from the level, and none before it does. -/
theorem firstChange_some {level : Bool} {bs : List Bool} {n : Nat} : firstChange level bs = some n ↔
    bs[n]? = some (!level) ∧ ∀ m, m < n → bs[m]? = some level := by
  induction bs generalizing n with
  | nil => simp [firstChange]
  | cons b bs ih =>
    unfold firstChange at ih ⊢
    rw [List.findIdx?_cons]
    cases n with
    | zero => cases b <;> cases level <;> simp
    | succ n =>
      have e : (∀ m, m < n + 1 → (b :: bs)[m]? = some level) ↔ b = level ∧ ∀ m, m < n → bs[m]? = some level := by
        constructor
        · intro h
          exact ⟨by simpa using h 0 (by omega), fun m hm => by simpa using h (m + 1) (by omega)⟩
        · rintro ⟨h0, h⟩ m hm
          cases m with
          | zero => simpa using h0
          | succ m => simpa using h m (by omega)
      rw [e, List.getElem?_cons_succ]
      by_cases hb : b = level
      · subst hb; simp [ih]
      · simp [hb]

/-- Bits with no first change all stand at the level. -/
theorem firstChange_none {level : Bool} {bs : List Bool} : firstChange level bs = none ↔ ∀ b ∈ bs, b = level := by
  simp [firstChange]

/-! ## The command port's line and times (R170, R171) -/

/-- A byte is ten bits. -/
theorem byteBits_length (b : Byte) : (byteBits b).length = 10 := by simp [byteBits]

/-- The eight data bits of a byte give it back. -/
theorem byteOfBits_bits (b : Byte) : byteOfBits ((List.range 8).map b.getLsbD) = b := by revert b; decide +kernel

/-- Ten levels from rest, of which the first is 0: a byte when the last is 1, and one with a framing error when it is 0. -/
theorem LineRx.bytes_ten (data levels : List Bool) (stop : Bool) (h : data.length = 8) :
    LineRx.bytes .idle (false :: data ++ stop :: levels) =
      if stop then .good (byteOfBits data) :: LineRx.bytes .idle levels else .framingError :: LineRx.bytes .low levels := by
  match data, h with
  | [a, b, c, d, e, f, g, i], _ => cases stop <;> simp [LineRx.bytes, LineRx.take]

/-- A byte sent is the byte received. -/
theorem LineRx.bytes_byteBits (b : Byte) (levels : List Bool) :
    LineRx.bytes .idle (byteBits b ++ levels) = .good b :: LineRx.bytes .idle levels := by
  have h := LineRx.bytes_ten ((List.range 8).map b.getLsbD) levels true (by simp)
  rw [byteOfBits_bits] at h
  simpa [byteBits] using h

/-- While the line stays at 0 nothing follows a byte with a framing error. -/
theorem LineRx.bytes_low (n : Nat) : LineRx.bytes .low (List.replicate n false) = [] := by
  induction n with
  | zero => rfl
  | succ n ih => simpa [List.replicate_succ, LineRx.bytes, LineRx.take] using ih

/-- The gap of a frame in progress ends with the first microsecond at which a byte that began more than 2 ms after its last byte can
end. -/
theorem gapUs_le (straps : BitVec 2) (us : Nat) :
    gapUs straps ≤ us ↔ 2000 * portRate straps + 10000000 < us * portRate straps := by
  have h : straps = 0 ∨ straps = 1 ∨ straps = 2 ∨ straps = 3 := by revert straps; decide
  rcases h with rfl | rfl | rfl | rfl <;> simp [gapUs, byteUs, portRate] <;> omega

/-! ## Numbers -/

theorem clamp_bounds {lo hi : Int} (h : lo ≤ hi) (x : Int) : lo ≤ clamp lo hi x ∧ clamp lo hi x ≤ hi := by
  unfold clamp
  split
  · omega
  · split <;> omega

theorem clamp_of_within {lo hi x : Int} (h₁ : lo ≤ x) (h₂ : x ≤ hi) : clamp lo hi x = x := by
  unfold clamp
  rw [if_neg (by omega), if_neg (by omega)]

/-- Rounding to nearest: twice the error is at most the divisor. -/
theorem roundDiv_error (a : Int) {b : Int} (h : 0 < b) : 2 * (b * roundDiv a b - a) ≤ b ∧ -b ≤ 2 * (b * roundDiv a b - a) := by
  have key : ∀ x : Int, 2 * (b * ((2 * x + b) / (2 * b)) - x) ≤ b ∧ -b ≤ 2 * (b * ((2 * x + b) / (2 * b)) - x) := by
    intro x
    have h1 := Int.mul_ediv_add_emod (2 * x + b) (2 * b)
    have h2 := Int.emod_nonneg (2 * x + b) (b := 2 * b) (by omega)
    have h3 := Int.emod_lt_of_pos (2 * x + b) (b := 2 * b) (by omega)
    have h4 : 2 * b * ((2 * x + b) / (2 * b)) = 2 * (b * ((2 * x + b) / (2 * b))) := by ring
    constructor <;> linarith
  unfold roundDiv
  split
  · exact key a
  · have := key (-a)
    constructor <;> [have := this.2; have := this.1] <;> linarith

end Sys2Proof.Machine
end

