-- ==== Sys2Proof/Laws/PerInstr.lean ====
section
/-! SUPPORT. The family Fits: the LEN byte of a command's frame is one that the receiver takes, 3..250, when the command is well
formed (R171, Table 11-2). -/

namespace Sys2Proof.Laws.Fits

open Sys2Proof.Machine

/-- A command's frame, where its row is a good frame, has a LEN that the receiver takes. -/
def Statement (i : Instr) : Prop :=
  i.wellFormed = true → ∀ (kind : Byte) (r : Request), i.frame = some (kind, r) →
    goodLen (BitVec.ofNat 8 (requestBody kind r).length) = true

theorem goodLen_of_fits {r : Request} (kind : Byte) (h : r.fits = true) :
    goodLen (BitVec.ofNat 8 (requestBody kind r).length) = true := by
  have h' : r.payload.length ≤ 247 := by simpa [Request.fits] using h
  have e : (requestBody kind r).length = r.payload.length + 3 := by simp [requestBody]
  rw [e]
  simp only [goodLen, decide_eq_true_eq, BitVec.toNat_ofNat]
  omega

/-- A row that is a good frame. -/
theorem of_frame {i : Instr} {kind : Byte} {r : Request} (e : i.frame = some (kind, r)) (h : i.wellFormed = true → r.fits = true) :
    Statement i := by
  intro w k q e'
  obtain ⟨rfl, rfl⟩ := Prod.mk.inj (Option.some.inj (e.symm.trans e'))
  exact goodLen_of_fits _ (h w)

/-- A row that is not a good frame. -/
theorem of_none {i : Instr} (e : i.frame = none) : Statement i := by
  intro _ k q e'
  rw [e] at e'
  cases e'

theorem and_left {a b : Bool} (h : (a && b) = true) : a = true := (Bool.and_eq_true _ _ ▸ h).1

theorem ident (r : Request) : Statement (.ident r) := of_frame rfl id
theorem status (r : Request) : Statement (.status r) := of_frame rfl and_left
theorem statusClear (r : Request) : Statement (.statusClear r) := of_frame rfl and_left
theorem setModeConfig (r : Request) : Statement (.setModeConfig r) := of_frame rfl and_left
theorem setModeStandby (r : Request) : Statement (.setModeStandby r) := of_frame rfl and_left
theorem setModeSupervise (r : Request) : Statement (.setModeSupervise r) := of_frame rfl and_left
theorem restart (r : Request) : Statement (.restart r) := of_frame rfl id
theorem restartEffect : Statement .restartEffect := of_none rfl
theorem tableWrite (r : Request) : Statement (.tableWrite r) := of_frame rfl and_left
theorem tableWriteWell (r : Request) : Statement (.tableWriteWell r) := of_frame rfl and_left
theorem tableWriteClass (r : Request) : Statement (.tableWriteClass r) := of_frame rfl and_left
theorem tableWriteTiming (r : Request) : Statement (.tableWriteTiming r) := of_frame rfl and_left
theorem tableWriteCapture (r : Request) : Statement (.tableWriteCapture r) := of_frame rfl and_left
theorem tableRead (r : Request) : Statement (.tableRead r) := of_frame rfl id
theorem stage (r : Request) : Statement (.stage r) := of_frame rfl id
theorem publish (r : Request) : Statement (.publish r) := of_frame rfl id
theorem readBank (r : Request) : Statement (.readBank r) := of_frame rfl id
theorem resume (r : Request) : Statement (.resume r) := of_frame rfl id
theorem wellCmdStart (r : Request) : Statement (.wellCmdStart r) := of_frame rfl and_left
theorem wellCmdStop (r : Request) : Statement (.wellCmdStop r) := of_frame rfl and_left
theorem wellCmdClear (r : Request) : Statement (.wellCmdClear r) := of_frame rfl and_left
theorem wellCmdServiceOut (r : Request) : Statement (.wellCmdServiceOut r) := of_frame rfl and_left
theorem wellCmdServiceIn (r : Request) : Statement (.wellCmdServiceIn r) := of_frame rfl and_left
theorem wellCmdHold (r : Request) : Statement (.wellCmdHold r) := of_frame rfl and_left
theorem wellCmdRelease (r : Request) : Statement (.wellCmdRelease r) := of_frame rfl and_left
theorem readWells (r : Request) : Statement (.readWells r) := of_frame rfl id
theorem turbineCmdTrip (r : Request) : Statement (.turbineCmdTrip r) := of_frame rfl and_left
theorem turbineCmdReset (r : Request) : Statement (.turbineCmdReset r) := of_frame rfl and_left
theorem turbineCmdRelease (r : Request) : Statement (.turbineCmdRelease r) := of_frame rfl and_left
theorem readTurbine (r : Request) : Statement (.readTurbine r) := of_frame rfl id
theorem outputCmdServiceOut (r : Request) : Statement (.outputCmdServiceOut r) := of_frame rfl and_left
theorem outputCmdServiceIn (r : Request) : Statement (.outputCmdServiceIn r) := of_frame rfl and_left
theorem readOutputs (r : Request) : Statement (.readOutputs r) := of_frame rfl id
theorem force (r : Request) : Statement (.force r) := of_frame rfl id
theorem unforce (r : Request) : Statement (.unforce r) := of_frame rfl id
theorem trim (r : Request) : Statement (.trim r) := of_frame rfl id
theorem readChannels (r : Request) : Statement (.readChannels r) := of_frame rfl id
theorem setLab (r : Request) : Statement (.setLab r) := of_frame rfl id
theorem ackAlarm (r : Request) : Statement (.ackAlarm r) := of_frame rfl id
theorem readScale (r : Request) : Statement (.readScale r) := of_frame rfl id
theorem readHeat (r : Request) : Statement (.readHeat r) := of_frame rfl id
theorem clearEnergy (r : Request) : Statement (.clearEnergy r) := of_frame rfl id
theorem readLoop (r : Request) : Statement (.readLoop r) := of_frame rfl and_left
theorem readLoopClear (r : Request) : Statement (.readLoopClear r) := of_frame rfl and_left
theorem fetchEvents (r : Request) : Statement (.fetchEvents r) := of_frame rfl id
theorem captureCmdStart (r : Request) : Statement (.captureCmdStart r) := of_frame rfl and_left
theorem captureCmdStop (r : Request) : Statement (.captureCmdStop r) := of_frame rfl and_left
theorem captureCmdRearm (r : Request) : Statement (.captureCmdRearm r) := of_frame rfl and_left
theorem readCapture (r : Request) : Statement (.readCapture r) := of_frame rfl id
theorem timeSet (r : Request) : Statement (.timeSet r) := of_frame rfl id
theorem timeSyncA (r : Request) : Statement (.timeSyncA r) := of_frame rfl and_left
theorem timeSyncB (r : Request) : Statement (.timeSyncB r) := of_frame rfl and_left
theorem unknownKind (kind : Byte) (r : Request) : Statement (.unknownKind kind r) := of_frame rfl and_left
theorem frameOverrunDiscard (kind : Byte) (r : Request) : Statement (.frameOverrunDiscard kind r) := of_frame rfl id
theorem crcMismatchDiscard (kind : Byte) (r : Request) (crc : Word) : Statement (.crcMismatchDiscard kind r crc) := of_none rfl
theorem badLenDiscard (len : Byte) : Statement (.badLenDiscard len) := of_none rfl
theorem framingErrorAbandon : Statement .framingErrorAbandon := of_none rfl
theorem gapAbandon : Statement .gapAbandon := of_none rfl
theorem replySent : Statement .replySent := of_none rfl
theorem resetPinLow : Statement .resetPinLow := of_none rfl
theorem powerOnReset (straps : BitVec 2) : Statement (.powerOnReset straps) := of_none rfl
theorem candidateMatch (position : Nat) (bits : Word) : Statement (.candidateMatch position bits) := of_none rfl
theorem candidateConfirm (words : CandidateWords) : Statement (.candidateConfirm words) := of_none rfl
theorem candidateFail (words : CandidateWords) : Statement (.candidateFail words) := of_none rfl
theorem huntIntervalExpiry : Statement .huntIntervalExpiry := of_none rfl
theorem searchDwellExpiry : Statement .searchDwellExpiry := of_none rfl
theorem frameJudge (frame : LoopFrame) : Statement (.frameJudge frame) := of_none rfl
theorem lineSilenceTimeout : Statement .lineSilenceTimeout := of_none rfl
theorem blindTimerExpiry : Statement .blindTimerExpiry := of_none rfl
theorem outboundScanStart : Statement .outboundScanStart := of_none rfl
theorem outboundFrameStart : Statement .outboundFrameStart := of_none rfl
theorem mbcProcessSnapshot : Statement .mbcProcessSnapshot := of_none rfl
theorem hostTimerExpiry : Statement .hostTimerExpiry := of_none rfl
theorem wsvProcessSnapshot : Statement .wsvProcessSnapshot := of_none rfl
theorem startTimerExpiry (well : WellNo) : Statement (.startTimerExpiry well) := of_none rfl
theorem staggerTimerExpiry : Statement .staggerTimerExpiry := of_none rfl
theorem tgdProcessSnapshot : Statement .tgdProcessSnapshot := of_none rfl
theorem permissiveHoldExpiry (step : HoldStep) : Statement (.permissiveHoldExpiry step) := of_none rfl
theorem hxuProcessSnapshot : Statement .hxuProcessSnapshot := of_none rfl
theorem scmProcessSnapshot : Statement .scmProcessSnapshot := of_none rfl
theorem capProcessSnapshot : Statement .capProcessSnapshot := of_none rfl
theorem clockAdvance : Statement .clockAdvance := of_none rfl

end Sys2Proof.Laws.Fits
end

