-- ==== Sys2Proof/Tests/Slice0.lean ====
section
/-! SUPPORT. Tests: each check of well-formedness refuses a term, the manual's worked cases, single commands from small states, and
for each statement with hypotheses values that meet them, at the ends of their ranges. -/

namespace Sys2Proof.Tests

open Sys2Proof.Machine

-- The kernel decides many of these, each waiting for the ones before it: one at a time keeps the threads few.
set_option Elab.async false

/-- A request with some tag. -/
def req (payload : List Byte) : Request := ⟨0x0102#16, payload⟩

/-- The part after reset with one block changed. -/
def withLif (f : Lif → Lif) : State := { State.reset with lif := f State.reset.lif }
def withMode (m : Mode) : State := { State.reset with mbc := { State.reset.mbc with mode := m } }
def withTgd (f : Tgd → Tgd) : State := { State.reset with tgd := f State.reset.tgd }
def withWsv (f : Wsv → Wsv) : State := { State.reset with wsv := f State.reset.wsv }

/-- The part while the reply to a request of this kind goes out. -/
def replying (kind : Byte) : State :=
  { State.reset with cpt := { State.reset.cpt with buffer := some ⟨kind, req [], ⟨kind ||| 0x80#8, 0, .ok, 0, []⟩, ⟨0, 2500⟩, 1000⟩ } }

/-- What a next state's test sees of it. -/
def nextHas (o : Host.Outcome State Fault Refusal) (p : State → Bool) : Bool :=
  match o with
  | .next t => p t
  | .fault _ => false
  | .refused _ => false

/-- The status and payload of the reply going out. -/
def replies (st : Status) (payload : List Byte) (s : State) : Bool :=
  s.cpt.buffer.any fun e => decide (e.reply.status = st ∧ e.reply.payload = payload)

/-! ## Well-formedness -/

/-- A payload of 248 bytes fits no frame. -/
theorem test_illFormed_payload : (Instr.ident (req (List.replicate 248 0))).wellFormed = false := by decide +kernel

/-- A one-byte payload that is another row's option. -/
theorem test_illFormed_option : (Instr.status (req [1])).wellFormed = false ∧ (Instr.statusClear (req [0])).wellFormed = false ∧
    (Instr.setModeConfig (req [2])).wellFormed = false ∧ (Instr.turbineCmdTrip (req [1])).wellFormed = false ∧
    (Instr.captureCmdStop (req [0])).wellFormed = false := by decide

/-- A two-byte payload that carries another row's command. -/
theorem test_illFormed_command : (Instr.wellCmdStart (req [3, 6])).wellFormed = false ∧
    (Instr.outputCmdServiceOut (req [3, 1])).wellFormed = false := by decide

/-- A table with a row of its own, and a row of another table. -/
theorem test_illFormed_table : (Instr.tableWrite (req [14, 0])).wellFormed = false ∧
    (Instr.tableWriteWell (req [0, 0])).wellFormed = false := by decide

/-- A source byte of the other row. -/
theorem test_illFormed_source : (Instr.timeSyncA (req [1, 0, 0, 0, 0])).wellFormed = false := by decide

/-- A known kind, a CRC that matches. -/
theorem test_illFormed_frame : (Instr.unknownKind 0x1F (req [])).wellFormed = false ∧
    (Instr.crcMismatchDiscard 1 (req []) (requestCrc 1 (req []))).wellFormed = false := by decide +kernel

/-- Words that pass or fail the three tests. -/
theorem test_illFormed_candidate :
    (Instr.candidateConfirm ⟨0xC000, 0xB74C, 0x0000, 0xB74C⟩).wellFormed = false ∧
    (Instr.candidateFail ⟨0xA000, 0xB74C, 0x0000, 0xB74C⟩).wellFormed = false := by decide

/-! ## The manual's worked cases -/

/-- Table 8-9. -/
def workedCurve : List CurvePoint := [⟨600, 211⟩, ⟨800, 281⟩, ⟨1000, 363⟩, ⟨1200, 457⟩, ⟨1400, 562⟩, ⟨1600, 679⟩, ⟨1800, 805⟩]

theorem test_scaling : factor 1600 1280 = 1250 ∧ effective 600 1250 = 750 ∧ interpolate 1500 workedCurve = 621 ∧
    saturation 750 621 = 1208 ∧ requiredSolubility 750 1100 = 682 ∧ tempFloor 682 workedCurve = (1605, false) := by decide

/-- The plan of chapter 7. -/
theorem test_heat : duty 950 4190 350 = 13932 ∧ duty 1200 4200 145 = 7308 ∧ planDemand 7308 20000 = 365 ∧
    duty 950 4190 182 = 7245 ∧ (State.reset.hxu.addEnergy (22 * 166924800)).energy = 1 ∧
    (State.reset.hxu.addEnergy (22 * 166924800)).residue = 72345600 := by decide

/-- The trip of chapter 6: the cap floor(300 * 1000 / 380). -/
theorem test_tripCap : tripCap { PlantRecord.default with steam := some 7 } 300
      { State.reset.view with chans := State.reset.view.chans.set 7 ⟨380, .good, 0⟩ } = some ⟨789, false⟩ := by decide +kernel

/-- The CRC of "123456789"; the check byte of 28 hold codes differs from that of 28 zeros. -/
theorem test_crc : crc16 [0x31, 0x32, 0x33, 0x34, 0x35, 0x36, 0x37, 0x38, 0x39] = 0x29B1#16 ∧ crc8 [] = 0 ∧ crc8 [1] = 7 ∧
    checkByte (Vector.replicate 28 0) = 0 ∧ checkByte (Vector.replicate 28 0x8000) ≠ 0 := by decide +kernel

/-- Halves round away from zero. -/
theorem test_roundDiv : roundDiv 5 2 = 3 ∧ roundDiv (-5) 2 = -3 ∧ roundDiv 4 3 = 1 ∧ ceilDiv 7 2 = 4 ∧ ceilDiv (-7) 2 = -3 := by decide

/-! ## Single commands -/

/-- From reset nothing waits: a step is a microsecond. -/
theorem test_idle : nextHas (step State.reset) (fun t => decide (t.now = 1 ∧ t.pending = [])) = true := by decide +kernel

/-- The clock's advance falls due after a millisecond. -/
theorem test_clockDue : nextHas (step { State.reset with now := 999 }) (fun t => decide (t.pending = [.clockAdvance])) = true := by
  decide +kernel

theorem test_clock : nextHas (exec .clockAdvance { State.reset with now := 1000 })
    (fun t => decide (t.clk.count = 1 ∧ t.clk.period = 1000)) = true := by decide +kernel

theorem test_ident : nextHas (exec (.ident (req [])) State.reset)
    (replies .ok [0x57, 0x42, 0x31, 0x60, 0x10, 0, 96, 64, 16, 8, 0x4C, 8, 64, 0x10, 0, 16, 0x1F, 0]) = true := by decide +kernel

theorem test_status : nextHas (exec (.status (req [0])) State.reset) (replies .ok [0, 0, 0, 0, 0, 0, 0, 0, 0, 0]) = true := by
  decide +kernel

/-- A WELL record written in CONFIG, well 2 a production well. -/
theorem test_tableWrite : nextHas
    (exec (.tableWriteWell (req ([2, 2] ++ { WellRecord.default with role := .production, flow := 5 }.bytes))) State.reset)
    (fun t => replies .ok [] t && decide (t.wsv.wells[2].state = some .stopped ∧ t.wsv.wells[2].cfg.flow = 5)) = true := by
  decide +kernel

theorem test_stage : nextHas (exec (.stage (req [16, 0x03, 0xE9, 17, 0xFF, 0xF6])) State.reset)
    (fun t => replies .ok [2, 1] t && decide (t.mbc.staging.heatCeiling = 1000 ∧ t.mbc.staging.shift = -10)) = true := by
  decide +kernel

theorem test_turbineTrip : nextHas (exec (.turbineCmdTrip (req [0])) (withMode .standby))
    (fun t => replies .ok [1, 0, 0] t && decide (t.tgd.causes = [.restarted, .hostTrip])) = true := by decide +kernel

theorem test_overspeed :
    nextHas (exec .tgdProcessSnapshot
      { withTgd (fun g => { g with guard := .armed, causes := [], first := none, cfg := { g.cfg with tripSpeed := 10, lubeTrip := 0 } }) with
        todo := ⟨false, false, true, false, false, false⟩
        view := { State.reset.view with chans := Vector.replicate 96 ⟨10, .good, 0⟩ } })
      (fun t => decide (t.tgd.guard = .tripped ∧ t.tgd.first = some .overspeed ∧ t.tgd.tripCount = 1)) = true := by decide +kernel

theorem test_capture : nextHas (exec (.captureCmdStart (req [0])) State.reset)
    (fun t => replies .ok [1, 0, 0] t && decide (t.cap.state = .running)) = true := by decide +kernel

theorem test_restart : nextHas (exec .replySent (replying 4)) (fun t => decide (t.cpt.buffer = none ∧ t.tgd.first = some .restarted)) =
    true := by decide +kernel

/-- The bytes of an IDENT request, one by one from HUNT, do what its row does. -/
theorem test_bytesArrive :
    nextHas ([0xC3, 3, 1, 0x01, 0x02, (requestCrc 1 (req [])).extractLsb' 8 8, (requestCrc 1 (req [])).extractLsb' 0 8].foldl
        (fun (o : Host.Outcome State Fault Refusal) b => match o with | .next t => exec (.badLenDiscard b) t | x => x)
        (.next State.reset))
      (fun t => replies .ok (identBytes State.reset) t && decide (t.cpt.rx = .hunt)) = true := by decide +kernel

/-- A byte's bits as they stand on the line, least significant first; a byte whose stop bit is 0; a break of two byte times; the
line back at 1 and a byte (R170). -/
theorem test_line : byteBits 0xC3 = [false, true, true, false, false, false, false, true, true, true] ∧
    LineRx.bytes .idle ([true, true] ++ byteBits 0xC3 ++ [true] ++ byteBits 5) = [.good 0xC3, .good 5] ∧
    LineRx.bytes .idle ((byteBits 0xC3).dropLast ++ [false, true] ++ byteBits 5) = [.framingError, .good 5] ∧
    LineRx.bytes .idle (List.replicate 20 false ++ [true] ++ byteBits 5) = [.framingError, .good 5] ∧
    LineRx.bytes .idle (byteBits 0xC3).dropLast = [] := by decide +kernel

/-- A LEN that ends 2173 microseconds after the 0xC3 began within 2 ms at strap code 0; one microsecond later it did not, and the
time base abandons the frame by itself. -/
theorem test_gap :
    let rxAt (now : Time) : State :=
      { State.reset with now := now, cpt := { State.reset.cpt with rx := .length 0 }, clk := { State.reset.clk with period := 2000 } }
    nextHas (exec (.badLenDiscard 5) (rxAt 2173)) (fun t => decide (t.cpt.rx = .body 2173 5 [])) = true ∧
    nextHas (exec (.badLenDiscard 5) (rxAt 2174)) (fun t => decide (t.cpt.rx = .hunt)) = true ∧
    nextHas (exec (.badLenDiscard 0xC3) (rxAt 2174)) (fun t => decide (t.cpt.rx = .length 2174)) = true ∧
    nextHas (step (rxAt 2172)) (fun t => decide (t.pending = [])) = true ∧
    nextHas (step (rxAt 2173)) (fun t => decide (t.pending = [.gapAbandon])) = true := by decide +kernel

/-- TXD before a reply's start, in its start bit, in the first two bits of 0xC3 at strap code 0, and after its end; the end of the
reply falls due. -/
theorem test_txd :
    let txAt (now : Time) : State := { replying 1 with now := now, clk := { State.reset.clk with period := 2000 } }
    ([999, 1000, 1017, 1018, 1036, 1053, 5000].map fun n => (txAt (BitVec.ofNat 48 n)).txd) =
      [true, false, false, true, true, false, true] ∧
    nextHas (step (txAt 2498)) (fun t => decide (t.pending = [])) = true ∧
    nextHas (step (txAt 2499)) (fun t => decide (t.pending = [.replySent])) = true := by decide +kernel

/-- The first eight bits of 0x58E3 on LTX at code 0, 16 microseconds each, and the level once the frame has ended. -/
theorem test_level :
    let tx : Transmitter := { State.reset.lif.tx with
      timer := some ⟨100, 7680⟩, rate := 0, line := some ⟨0x58E3, Vector.replicate 28 0, 0⟩ }
    ([100, 116, 132, 148, 164, 180, 196, 227].map fun n => tx.level (BitVec.ofNat 48 n)) =
      [false, true, false, true, true, false, false, false] ∧ tx.level 7780 = true ∧ State.reset.lif.tx.level 0 = true := by
  decide +kernel

/-- At code 3, with the last transition at 90 and the frame in progress begun at 1060 after a constant frame, the silence waits
until that frame has ended at 2020; with no frame since 100 it is due at 2020 itself. A frame with service word 1 moves the last
transition to the beginning of that bit, one that changes nothing leaves it. -/
theorem test_silence :
    let s (edge frameEnd now : Time) : State := { State.reset with now := now, lif :=
      { State.reset.lif with rx := .framed, selected := 3, edge := edge, frameEnd := frameEnd } }
    nextHas (step (s 90 1060 2019)) (fun t => !t.pending.contains .lineSilenceTimeout) = true ∧
    nextHas (step (s 90 1060 2020)) (fun t => t.pending.contains .lineSilenceTimeout) = true ∧
    nextHas (step (s 100 100 2018)) (fun t => !t.pending.contains .lineSilenceTimeout) = true ∧
    nextHas (step (s 100 100 2019)) (fun t => t.pending.contains .lineSilenceTimeout) = true ∧
    nextHas (exec .lineSilenceTimeout (s 100 100 200)) (fun t => decide (t.lif.rx = .hunt ∧ t.now = 2020)) = true ∧
    ((s 100 0 0).lif.watch ⟨0, Vector.replicate 28 0, 1⟩ 960).edge = 958 ∧
    ((s 100 0 0).lif.watch ⟨0, Vector.replicate 28 0, 0⟩ 960).edge = 100 := by decide +kernel

/-- At code 3, last transition at 90, a constant frame judged at 1060 and another at 2020: a frame whose alignment word begins with a
change comes in time and is judged, one that changes nothing does not; a run of 16 bits moves the last transition to its last
change. -/
theorem test_watched :
    let s : State := { State.reset with now := 2020, lif :=
      { State.reset.lif with rx := .framed, selected := 3, edge := 90, frameEnd := 1060 } }
    nextHas (exec (.frameJudge ⟨0xB74C, Vector.replicate 28 0, 0⟩) s) (fun t =>
      decide (t.lif.rx = .framed ∧ t.lif.frameEnd = 2020)) = true ∧
    nextHas (exec (.frameJudge ⟨0, Vector.replicate 28 0, 0⟩) s) (fun t =>
      decide (t.lif.rx = .hunt ∧ t.lif.alignErr.count = 0 ∧ t.lif.hunt = some ⟨2010, 30720⟩)) = true ∧
    nextHas (exec (.candidateMatch 0 0x00FF) s) (fun t => decide (t.lif.rx = .framed ∧ t.lif.edge = 2004)) = true ∧
    nextHas (exec (.candidateMatch 0 0xFFFF) s) (fun t => decide (t.lif.edge = 90)) = true := by decide +kernel

/-- PUBLISH met by a snapshot that MBC has not processed: the bank filled before is activated, the new one waits (R64). -/
theorem test_publishBeforeMbc :
    let s := withMode .supervise
    nextHas (exec (.publish (req [])) { s with
        todo := ⟨true, false, false, false, false, false⟩
        mbc := { s.mbc with pubBank := some ⟨s.mbc.staging, 7⟩, pubCount := 7, staging := { s.mbc.staging with shift := 5 } } })
      (fun t => replies .ok [0, 8] t && decide (t.mbc.origin = .published 7 ∧ t.mbc.active.shift = 0 ∧ t.todo.mbc = false ∧
        (t.mbc.pubBank.map fun p => (p.bank.shift, p.count)) = some (5, 8))) = true := by decide +kernel

/-- S1 waits for lock, and after a loss for the first snapshot published in it (R108, R111). -/
theorem test_loopStep :
    let v : View := { State.reset.view with chans := Vector.replicate 96 ⟨5, .good, 0⟩ }
    let l : Lif := { State.reset.lif with rx := .locked, continuous := true }
    State.reset.tgd.loopMet l v = true ∧ State.reset.tgd.loopMet { l with continuous := false } v = false ∧
    State.reset.tgd.loopMet { l with rx := .framed } v = false ∧ State.reset.tgd.loopMet l State.reset.view = false := by
  decide +kernel

theorem test_reset_flags : nextHas (exec (.powerOnReset 3) State.reset) (fun t => decide (t.straps = 3)) = true := by decide +kernel

/-! ## Values that meet the hypotheses of the statements -/

/-- Every statement about a taken request: the part after reset, and after reset in each mode, is ready. -/
theorem witness_ready : State.reset.ready ∧ (withMode .standby).ready ∧ (withMode .supervise).ready ∧ (withMode .leaving).ready :=
  ⟨⟨rfl, rfl⟩, ⟨rfl, rfl⟩, ⟨rfl, rfl⟩, ⟨rfl, rfl⟩⟩

theorem witness_StepRunsFront : { State.reset with pending := [.replySent, .gapAbandon] }.pending = .replySent :: [.gapAbandon] := rfl

theorem witness_TimeBaseRuns : State.reset.pending = [] ∧ State.reset.held = false ∧ { State.reset with held := true }.held = true ∧
    (⟨3, 5⟩ : Timer).duration ≤ elapsed 3 8 ∧ elapsed 3 7 < (⟨3, 5⟩ : Timer).duration := by decide +kernel

theorem witness_ResetPin : { State.reset with held := true }.held = true ∧ Instr.replySent ≠ .resetPinLow ∧
    ∀ b, Instr.replySent ≠ .powerOnReset b := ⟨rfl, nofun, nofun⟩

theorem witness_GoodFrameTaken : (Instr.unknownKind 0x00 (req [])).frame = some (0x00#8, req []) ∧
    (Instr.unknownKind 0x20 (req [])).frame = some (0x20#8, req []) ∧ (31 < (0x20#8).toNat ∧ (0x00#8).toNat = 0) ∧
    (replying 1).held = false ∧ (replying 1).cpt.buffer ≠ none := ⟨rfl, rfl, by decide, rfl, nofun⟩

/-- Every state of the receiver; LEN 2, 3, 250 and 251; a body one byte short of its LEN and further from it; a payload of 247; the
last byte that is in time at strap code 0, and the first that is not. -/
theorem witness_FailedFramesAreSilent :
    let rxAt (rx : CptRx) (now : Time) : State := { State.reset with now := now, cpt := { State.reset.cpt with rx := rx } }
    State.reset.held = false ∧ State.reset.cpt.rx = .hunt ∧ (0x0000#16 ≠ requestCrc 1 (req [])) ∧
    (rxAt (.length 7) 7).cpt.rx = .length 7 ∧
    ((2#8).toNat < 3 ∧ 250 < (251#8).toNat ∧ 3 ≤ (3#8).toNat ∧ (250#8).toNat ≤ 250) ∧
    ((rxAt (.body 7 3 [1, 2]) 7).cpt.rx = .body 7 3 [1, 2] ∧ ¬([1, 2] : List Byte).length + 1 < (3#8).toNat ∧
      ([1] : List Byte).length + 1 < (3#8).toNat) ∧
    (rxAt (.check 7 3 [1, 2, 3] none) 7).cpt.rx = .check 7 3 [1, 2, 3] none ∧
    (rxAt (.check 7 3 [1, 2, 3] (some 4)) 7).cpt.rx = .check 7 3 (1 :: 2 :: 3 :: []) (some 4) ∧
    (elapsed 7 2180 * portRate 0 ≤ 2000 * portRate 0 + 10000000 ∧ ¬elapsed 7 2181 * portRate 0 ≤ 2000 * portRate 0 + 10000000) ∧
    (rxAt (.length 7) 2181).cpt.rx.last = some 7 ∧ (req (List.replicate 247 0)).payload.length ≤ 247 ∧
    (List.replicate 8 false).length = 8 ∧ 10 ≤ 10 := by decide +kernel

theorem witness_IdentAnswered : State.reset.ready ∧ (req []).payload = [] ∧ (req [7]).payload ≠ [] := by decide

/-- A RESTART going out and an IDENT; before the start of a reply, in its last bit and after it. -/
theorem witness_RepliesEnd :
    let e (kind : Byte) : Exchange := ⟨kind, req [], ⟨kind ||| 0x80#8, 0, .ok, 0, []⟩, ⟨0, 2500⟩, 1000⟩
    State.reset.cpt.buffer = none ∧ (req []).payload = [] ∧ (req [0]).payload ≠ [] ∧
    (replying 4).cpt.buffer = some (e 4) ∧ (replying 4).held = false ∧ (e 4).kind = 0x04#8 ∧ (e 4).reply.status = .ok ∧
    (replying 1).cpt.buffer = some (e 1) ∧ ¬((e 1).kind = 0x04#8 ∧ (e 1).reply.status = .ok) ∧
    (e 1).reply.bytes.length = 9 ∧ elapsed 0 999 < (e 1).delay ∧
    (1000 ≤ elapsed 0 2562 ∧ (2562 - 1000) * portRate 0 / 1000000 = 89 ∧ ((e 1).reply.bytes[8]?).isSome = true) ∧
    10 * (e 1).reply.bytes.length ≤ (2563 - 1000) * portRate 0 / 1000000 := by decide +kernel

/-- The queue at 63 and at 64 entries, the log enable set and clear. -/
theorem witness_EventRaised :
    let full (n : Nat) (log : Bool) : Evq :=
      { State.reset.evq with queue := List.replicate n ⟨.clockSet, 0, 0, 0⟩, classes := Vector.replicate 9 ⟨log, true, false⟩ }
    (full 63 true).classes[EventKind.clockSet.cls].log = true ∧ (full 63 true).queue.length < 64 ∧
    (full 64 true).classes[EventKind.clockSet.cls].log = true ∧ 64 ≤ (full 64 true).queue.length ∧
    (full 64 false).classes[EventKind.clockSet.cls].log = false := by decide +kernel

/-- A request for 0, 1, 8 and 9 entries; option 0, 1 and 2. -/
theorem witness_EventsAndStatusRead : State.reset.ready ∧ (req []).payload.length ≠ 1 ∧ (req [0]).payload = [0] ∧ 8 < (9 : Byte).toNat ∧
    1 ≤ (1 : Byte).toNat ∧ (8 : Byte).toNat ≤ 8 ∧ 1 < (2 : Byte).toNat := by decide

theorem witness_ClockAdvancesAndIsSet : State.reset.ready ∧ { State.reset with now := 1000 }.mbc.timing.resolution.ms * 1000 ≤ elapsed 0 1000 ∧
    State.reset.clk.count ≠ 0xFFFFFFFF#32 ∧ { State.reset.clk with count := 0xFFFFFFFF#32 }.count = 0xFFFFFFFF#32 ∧
    (req [0, 0, 0, 1]).payload = [0x00#8, 0x00#8, 0x00#8, 0x01#8] := by decide +kernel

/-- Source 2, source B within the hold of 60 s and just beyond it, source B with no sync from A, source A. -/
theorem witness_TimeSyncJudged : State.reset.ready ∧ 1 < (2 : Byte).toNat ∧ decide (60 * 1000000 < elapsed 0 60000000) = false ∧
    decide (60 * 1000000 < elapsed 0 60000001) = true ∧ State.reset.clk.lastA = none ∧
    (req [1, 0, 0, 0, 0]).payload = [0x01#8, 0x00#8, 0x00#8, 0x00#8, 0x00#8] := by decide +kernel

/-! LIF -/

/-- A candidate under test in HUNT, in SEARCH at code 0, with the interval ended or not; words that pass, words that fail. -/
theorem witness_HuntForFrames :
    let hunt : Lif := { State.reset.lif with rx := .hunt, candidate := some 7, hunt := some ⟨0, 245760⟩ }
    let search : Lif := { State.reset.lif with rx := .search, trial := some 0, candidate := some 7, ended := true, dwell := some ⟨0, 46080⟩ }
    (hunt.rx = .hunt ∧ hunt.candidate = some 7 ∧ hunt.trial = none ∧ hunt.ended = false ∧ hunt.hunt = some ⟨0, 245760⟩) ∧
    (search.rx = .search ∧ search.candidate = some 7 ∧ search.trial = some 0 ∧ search.ended = true ∧
      search.dwell = some ⟨0, 46080⟩) ∧
    CandidateWords.index ⟨0xA000, 0xB74C, 0x0000, 0xB74C⟩ = some 5 ∧ CandidateWords.index ⟨0xC000, 0xB74C, 0xE000, 0xB74C⟩ = none ∧
    { hunt with cfg := { hunt.cfg with autoRate := true }, candidate := none }.cfg.autoRate = true ∧ hunt.cfg.autoRate = false ∧
    (State.reset.lif.rx ≠ .hunt ∧ State.reset.lif.rx ≠ .search) := by decide +kernel

/-- A frame of 28 zeros with this alignment and service word. -/
def frame (align service : Word) : LoopFrame := ⟨align, Vector.replicate 28 0, service⟩

/-- One bad alignment short of the loss count of 3, and at it, in FRAMED and in LOCKED. -/
theorem witness_BadAlignmentJudged :
    let l : Lif := { State.reset.lif with rx := .framed, badAlign := 1 }
    State.reset.held = false ∧ l.rx = .framed ∧ { l with rx := .locked }.rx = .locked ∧ (frame 0xB74D 0).align ≠ 0xB74C#16 ∧ l.badAlign + 1 < l.cfg.lossCount ∧
    { l with badAlign := 2 }.cfg.lossCount ≤ { l with badAlign := 2 }.badAlign + 1 ∧
    { l with rx := .locked, expected := some 5 }.expected = some 5 ∧ l.fellSilent (frame 0xB74D 0) 0 = false ∧
    { l with rx := .locked, badAlign := 2, expected := some 5 }.fellSilent (frame 0xB74D 0) 0 = false := by decide +kernel

/-- Index 6 with nothing expected, index 1 where 0 is expected; FRAMED and LOCKED. -/
theorem witness_OutOfSequenceJudged :
    let s := withLif fun l => { l with rx := .framed }
    let u := withLif fun l => { l with rx := .locked, expected := some 0 }
    (s.held = false ∧ s.lif.rx = .framed ∧ (frame 0xB74C 0xC000).align = 0xB74C#16 ∧ s.lif.expected = none ∧
      s.lif.fellSilent (frame 0xB74C 0xC000) s.now = false ∧ 6 ≤ ((frame 0xB74C 0xC000).service.extractLsb' 13 3).toNat) ∧
    (u.held = false ∧ u.lif.rx = .locked ∧ u.lif.expected = some 0 ∧ u.lif.fellSilent (frame 0xB74C 0x2000) u.now = false ∧
      ((frame 0xB74C 0x2000).service.extractLsb' 13 3).toNat ≠ (0 : Fin 6).val) := by decide +kernel

/-- Frame 5 after five, in the first and in the second qualifying scan; frame 0, which starts a run; frame 5 after three; a frame in
LOCKED. -/
theorem witness_InSequenceJudged :
    let s (rx : RxState) (e : Fin 6) (run qualifying : Nat) :=
      withLif fun l => { l with rx := rx, expected := some e, run := run, qualifying := qualifying }
    let run (i : Fin 6) (u : State) := if i = 0 then 1 else if u.lif.run = i.val then u.lif.run + 1 else 0
    ((frame 0xB74C 0xA000).align = 0xB74C#16 ∧ ((frame 0xB74C 0xA000).service.extractLsb' 13 3).toNat = (5 : Fin 6).val) ∧
    ((frame 0xB74C 0x0000).service.extractLsb' 13 3).toNat = (0 : Fin 6).val ∧
    ((s .framed 5 5 0).held = false ∧ (s .framed 5 5 0).lif.expected = some 5 ∧ 6 ≤ run 5 (s .framed 5 5 0) ∧
      (s .framed 5 5 0).lif.qualifying = 0) ∧
    (6 ≤ run 5 (s .framed 5 5 1) ∧ 1 ≤ (s .framed 5 5 1).lif.qualifying) ∧ run 0 (s .framed 0 5 0) < 6 ∧
    run 5 (s .framed 5 3 0) < 6 ∧ (s .locked 5 0 0).lif.rx = .locked ∧
    (s .framed 5 5 0).lif.fellSilent (frame 0xB74C 0xA000) 0 = false ∧ (s .framed 5 5 1).lif.fellSilent (frame 0xB74C 0xA000) 0 = false ∧
    (s .framed 0 5 0).lif.fellSilent (frame 0xB74C 0) 0 = false ∧ (s .framed 5 3 0).lif.fellSilent (frame 0xB74C 0xA000) 0 = false ∧
    (s .locked 5 0 0).lif.fellSilent (frame 0xB74C 0xA000) 0 = false := by decide +kernel

theorem witness_FlagsAndLock : State.reset.lif.blind = false ∧ (withLif fun l => { l with blind := true }).lif.blind = true :=
  ⟨rfl, rfl⟩

theorem witness_LossOfLine : State.reset.held = false ∧
    (withLif fun l => { l with rx := .framed }).lif.rx = .framed ∧
    (withLif fun l => { l with rx := .locked }).lif.rx = .locked ∧ (State.reset.lif.rx ≠ .framed ∧ State.reset.lif.rx ≠ .locked) ∧
    State.reset.lif.blindTimer = none ∧
    (withLif fun l => { l with blindTimer := some ⟨0, 1000000⟩ }).lif.blindTimer = some ⟨0, 1000000⟩ :=
  ⟨rfl, rfl, rfl, ⟨nofun, nofun⟩, rfl, rfl⟩

/-- For the line watched through a frame: one without a change, one whose last change is its last bit, and one whose only change is
its first. -/
theorem witness_LossOfLine_watch :
    let bit (f : LoopFrame) (n : Nat) : Bool :=
      (if n / 16 = 0 then f.align else (f.slots[n / 16 - 1]?).getD f.service).getLsbD (15 - n % 16)
    let changes (f : LoopFrame) (level : Bool) (n : Nat) : Bool :=
      decide (bit f n ≠ if n = 0 then level else bit f (n - 1))
    (∀ n, n < 480 → ¬changes (frame 0 0) false n = true) ∧ changes (frame 0 1) false 479 = true ∧
    (changes (frame 0 0) true 0 = true ∧ ∀ m, m < 480 → 0 < m → ¬changes (frame 0 0) true m = true) := by decide +kernel

/-- A frame without a change, and one that changes with its first bit, that end when the silence has and has not gone before; in FRAMED
and in LOCKED. -/
theorem witness_LossOfLine_fellSilent :
    let l (rx : RxState) : Lif := { State.reset.lif with rx := rx, selected := 3 }
    (l .framed).fellSilent (frame 0 0) 1921 = true ∧ (l .locked).fellSilent (frame 0 0) 1921 = true ∧
    (l .framed).fellSilent (frame 0 0) 1920 = false ∧ (l .framed).fellSilent (frame 0x8000 0) 2881 = true ∧
    (l .framed).fellSilent (frame 0x8000 0) 2880 = false := by decide +kernel

/-- A run of 16 bits without a change, with its last change at its last bit, and at its second. -/
theorem witness_LossOfLine_watchRun :
    let changes (bits : Word) (n : Nat) : Bool := decide (bits.getLsbD (15 - n) ≠ bits.getLsbD (16 - n))
    (∀ n, n < 16 → 1 ≤ n → ¬changes 0 n = true) ∧ changes 1 15 = true ∧
    (changes 0x8000 1 = true ∧ ∀ m, m < 16 → 1 < m → ¬changes 0x8000 m = true) := by decide +kernel

/-- The transmitter stopped, running with a scan start due, running with frame 5 due; one output in use at frame 5, slot 27; the
last bit of a frame at code 0. -/
theorem witness_OutboundStarts :
    let tx : Transmitter := { State.reset.lif.tx with timer := some ⟨0, 0⟩ }
    let u : Out := { State.reset.out with outs := (State.reset.out.outs.set 3
      { State.reset.out.outs[3] with cfg := { OutputRecord.default with inUse := true, pos := ⟨5, 27⟩ } }) }
    let line : Transmitter :=
      { tx with timer := some ⟨5, 7680⟩, rate := 0, line := some ⟨0x58E3, Vector.replicate 28 0, 0⟩ }
    State.reset.lif.tx.timer = none ∧ tx.next = none ∧ { tx with next := some 5 }.next = some 5 ∧ u.outs[3].cfg.inUse = true ∧
    (∀ j : OutputNo, u.outs[j].cfg.inUse = true → u.outs[j].cfg.pos = u.outs[3].cfg.pos → j = 3) ∧
    (line.timer = some ⟨5, 7680⟩ ∧ line.line = some ⟨0x58E3, Vector.replicate 28 0, 0⟩ ∧
      (⟨5, 7680⟩ : Timer).duration = 480 * (16 / 2 ^ line.rate.val) ∧
      elapsed 5 7684 / (16 / 2 ^ line.rate.val) = 16 * (29 : Fin 30).val + (15 : Fin 16).val) := by decide +kernel

theorem witness_ErrorCountersAndReadLoop : State.reset.ready ∧ (req []).payload.length ≠ 1 ∧ 1 < (2 : Byte).toNat ∧ (req [0]).payload = [0x00#8] ∧
    (req [1]).payload = [0x01#8] := by decide

/-! ACQ and OUT -/

/-- A forced value; a fresh word below, at and above the limits of the default record; no word, and the hold code. -/
theorem witness_ChannelConverted :
    let c := Channel.init .default
    let sum (w : Word) := roundDiv (w.toNat * c.cfg.gain) 1024 + c.cfg.offset + (-1)
    { c with force := some 5 }.force = some 5 ∧ c.force = none ∧ (0x0000#16 ≠ 0x8000#16 ∧ sum 0 < c.cfg.lo) ∧
    (c.cfg.lo ≤ sum 1 ∧ sum 1001 ≤ c.cfg.hi) ∧ (c.cfg.lo ≤ sum 1002 ∧ c.cfg.hi < sum 1002) ∧
    c.cfg.inUse = false ∧ { c.cfg with inUse := true }.inUse = true := by decide +kernel

/-- A stamp 2^32 - 1 microseconds back, and one 2^32 back. -/
theorem witness_SnapshotPublished : State.reset.held = false ∧ elapsed 0 4294967295 < 2 ^ 32 ∧ 2 ^ 32 ≤ elapsed 0 4294967296 ∧
    State.reset.lif.continuous = false ∧ State.reset.acq.prevStamp = none ∧
    { State.reset.lif with continuous := true }.continuous = true ∧
    { State.reset.acq with prevStamp := some 0 }.prevStamp = some 0 := by decide +kernel

theorem witness_ChannelRequests : State.reset.ready ∧ 96 ≤ (96 : Byte).toNat ∧ (95 : Byte).toNat < 96 ∧ (req [95]).payload = [95] ∧
    (req [95, 0, 0, 0, 1]).payload = [95, 0, 0, 0, 1] ∧ (req [0]).payload.length ≠ 5 ∧ (req []).payload.length ≠ 1 := by decide

theorem witness_DemandDelivered :
    let u : Out := { State.reset.out with outs := (State.reset.out.outs.set 63
      { State.reset.out.outs[63] with cfg := { OutputRecord.default with inUse := true, source := .stopValve } }) }
    (u.outs[63].cfg.inUse = true ∧ u.outs[63].cfg.source = .stopValve) ∧ ¬(u.outs[0].cfg.inUse = true ∧ u.outs[0].cfg.source = .stopValve) ∧
    (withMode .supervise).mbc.mode ≠ .config ∧ State.reset.mbc.mode = .config ∧ u.failSafe = false ∧
    { u with failSafe := true }.failSafe = true := by decide +kernel

theorem witness_OutputService : State.reset.ready ∧ 64 ≤ (64 : Byte).toNat ∧ (63 : Byte).toNat < 64 ∧ (req [63, 1]).payload = [63, 1] ∧
    (req [63]).payload.length ≠ 2 := by decide

/-! MBC -/

/-- A configured part: the turbine's four channels in use, each of its kind and at a slot of its own. -/
def configured : State :=
  let chan (slot : Fin 28) (kind : Kind) : Channel := .init { ChannelRecord.default with inUse := true, pos := ⟨0, slot⟩, kind := kind }
  let chans := State.reset.acq.chans
  { withTgd (fun g => { g with cfg := { g.cfg with lube := 1, gear := 2, purity := 3 } }) with
    acq := { State.reset.acq with
      chans := (((chans.set 0 (chan 0 .speed)).set 1 (chan 1 .press)).set 2 (chan 2 .state)).set 3 (chan 3 .purity) } }

/-- The part after reset fails the consistency check at the turbine's speed channel; the configured part passes and leaves
CONFIG. -/
theorem witness_ModeSet : State.reset.ready ∧ 2 < (3 : Byte).toNat ∧ (req [0]).payload = [0x00#8] ∧ (req [1]).payload = [0x01#8] ∧
    (req [2]).payload = [0x02#8] ∧ State.reset.mbc.mode = .config ∧ (withMode .leaving).mbc.mode ≠ .config ∧
    consistency State.reset.hears = some ⟨6, 7, 0, 3, 0⟩ ∧ configured.ready ∧ configured.mbc.mode = .config ∧
    consistency configured.hears = none := by decide +kernel

/-- The part after reset is refused at test 6 of Table 4-4, with the turbine's speed channel. -/
theorem test_setMode_refused : nextHas (exec (.setModeStandby (req [1])) State.reset) (replies .badConfig [0, 6, 7, 0, 3, 0]) = true := by
  decide +kernel

theorem test_setMode : nextHas (exec (.setModeStandby (req [1])) configured)
    (fun t => replies .ok [1] t && decide (t.mbc.mode = .standby ∧ t.lif.rx = .hunt)) = true := by decide +kernel

/-- 32 items, field 26 and field 27. -/
theorem witness_BankRequestsTaken : State.reset.ready ∧ ¬((List.replicate 96 (0 : Byte)).length % 3 ≠ 0 ∨ 32 * 3 < (List.replicate 96 (0 : Byte)).length) ∧
    (⟨26, 5⟩ : Item).field ≤ 26 ∧ 26 < (⟨27, 5⟩ : Item).field ∧ (req []).payload = [] ∧ (req [1]).payload ≠ [] ∧
    State.reset.todo.mbc = false := by decide

theorem witness_BanksActivated : State.reset.held = false ∧ State.reset.todo.mbc = false ∧ { State.reset.todo with mbc := true }.mbc = true ∧
    State.reset.mbc.hostTimer = none ∧ { State.reset.mbc with hostTimer := some ⟨0, 2000000⟩ }.hostTimer = some ⟨0, 2000000⟩ ∧
    (∀ i : WellNo, State.reset.view.wells[i] ≠ some .starting) := by decide +kernel

/-! WSV -/

theorem witness_WellCommandJudged : State.reset.ready ∧ 16 ≤ (16 : Byte).toNat ∧ (15 : Byte).toNat < 16 ∧ (req [15, 6]).payload = [15, 6] ∧
    (req [15]).payload.length ≠ 2 := by decide

/-- A queue of a production well, held back by a deficit, and a reinjection well behind it. -/
theorem witness_StartsGranted :
    let v : Wsv := { State.reset.wsv with
      wells := (State.reset.wsv.wells.set 0 { State.reset.wsv.wells[0] with cfg := { WellRecord.default with role := .production } }).set 1
        { State.reset.wsv.wells[1] with cfg := { WellRecord.default with role := .reinjection }, state := some .starting,
                                        startTimer := some ⟨0, 5⟩ }
      queue := [0, 1], deficit := true, stagger := some ⟨0, 7⟩ }
    (v.queue = [0] ++ 1 :: [] ∧ (∀ j ∈ [(0 : WellNo)], ¬(v.wells[j].cfg.role = .reinjection ∨ (v.deficit = false ∧ v.view.cap = none))) ∧
      v.wells[(1 : WellNo)].cfg.role = .reinjection) ∧
    ((withMode .supervise).mbc.mode = .supervise ∧ State.reset.wsv.slot = none ∧ State.reset.wsv.stagger = none) ∧
    v.stagger = some ⟨0, 7⟩ ∧ v.wells[(1 : WellNo)].state = some .starting ∧ v.wells[(1 : WellNo)].startTimer = some ⟨0, 5⟩ ∧
    v.wells[(0 : WellNo)].state ≠ some .starting := by decide +kernel

/-- A motor channel that reads 1, and one that reads 0; none. -/
theorem witness_WellsTestedAndTripped :
    let w : WellRecord := { WellRecord.default with motor := some 9 }
    let chans := State.reset.view.chans.set 9 ⟨1, .good, 0⟩
    (∃ ch, w.motor = some ch ∧ chans[ch].quality ≠ .stale ∧ chans[ch].value = 1) ∧
    ¬∃ ch, WellRecord.default.motor = some ch ∧ chans[ch].quality ≠ .stale ∧ chans[ch].value = 1 :=
  ⟨⟨9, rfl, by decide, by decide⟩, nofun⟩

theorem witness_WsvSnapshotProcessed : State.reset.held = false ∧ State.reset.todo.wsv = false ∧ { State.reset.todo with wsv := true }.wsv = true ∧
    { State.reset.view with mode := .standby }.mode = .standby ∧ { State.reset.view with mode := .leaving }.mode = .leaving ∧
    State.reset.wsv.plant.brine = none ∧ State.reset.wsv.plant.check = true ∧
    { PlantRecord.default with brine := some 95 }.brine = some 95 ∧ State.reset.view.chans[(95 : ChannelNo)].quality = .stale ∧
    (State.reset.view.chans.set 95 ⟨0, .good, 0⟩)[(95 : ChannelNo)].quality ≠ .stale := by decide +kernel

/-! TGD -/

theorem witness_CauseTaken : (withTgd fun g => { g with guard := .armed }).tgd.guard = .armed ∧ State.reset.tgd.guard = .tripped ∧
    Cause.overspeed ∉ State.reset.tgd.causes ∧ Cause.restarted ∈ State.reset.tgd.causes := ⟨rfl, rfl, by decide, by decide⟩

theorem witness_TurbineCommandJudged : State.reset.ready ∧ 2 < (3 : Byte).toNat ∧ (req [0]).payload = [0x00#8] ∧ (req [1]).payload = [0x01#8] ∧
    (req [2]).payload = [0x02#8] ∧ (req []).payload.length ≠ 1 := by decide

theorem witness_TgdSnapshotProcessed : State.reset.todo.tgd = false ∧ { State.reset.todo with tgd := true }.tgd = true ∧
    State.reset.held = false := by decide

theorem witness_ChainWalked : (∀ t, State.reset.tgd.chain.step .s2 ≠ .timing t) ∧
    (withTgd fun g => { g with chain := { g.chain with s4 := .timing ⟨0, 60000000⟩ } }).tgd.chain.step .s4 = .timing ⟨0, 60000000⟩ :=
  ⟨nofun, rfl⟩

/-! HXU -/

theorem witness_HeatPlanned : State.reset.todo.hxu = false ∧ { State.reset.todo with hxu := true }.hxu = true ∧
    State.reset.hxu.cfg.enable = false ∧ { State.reset.hxu.cfg with enable := true }.enable = true ∧
    State.reset.hxu.cfg.floorPoint = none ∧ { State.reset.hxu.cfg with floorPoint := some 7 }.floorPoint = some 7 ∧
    ¬State.reset.view.chans[(0 : ChannelNo)].quality ≠ .stale ∧
    (Vector.replicate 96 (⟨5, .good, 0⟩ : Reading))[(0 : ChannelNo)].quality ≠ .stale := by decide +kernel

/-- The guard's count one short of its persistence of 5, and at it; the deficit count one short of 50, and at it. -/
theorem witness_HeatGuardedAndMetered :
    let h := State.reset.hxu
    let n (outlet : Int) (count : Nat) : Nat := if outlet < h.fig.tFl - h.cfg.guardBand then min 255 (count + 1) else 0
    h.engaged = false ∧ { h with engaged := true }.engaged = true ∧ n (-21) 3 < h.cfg.guardPersistence ∧
    h.cfg.guardPersistence ≤ n (-21) 4 ∧ State.reset.view.interval = none ∧
    { State.reset.view with interval := some 23040 }.interval = some 23040 ∧ h.planHeld = false ∧ { h with planHeld := true }.planHeld = true ∧
    h.deficit = decide (h.cfg.deficitKw < 1000) ∧ h.deficit ≠ decide (h.cfg.deficitKw < 1001) ∧
    48 + 1 < h.cfg.deficitPersistence ∧ h.cfg.deficitPersistence ≤ 49 + 1 := by decide +kernel

theorem witness_EnergyLabAndAlarmRequests : State.reset.ready ∧ 8 ≤ (8 : Byte).toNat ∧ (7 : Byte).toNat < 8 ∧ (req [7, 0x0F, 0xA0]).payload = [7, 0x0F, 0xA0] ∧
    (req [7]).payload = [7] ∧ (req []).payload.length ≠ 1 ∧ (req []).payload.length ≠ 3 ∧ (req [1]).payload ≠ [] := by decide

/-! SCM -/

/-- A divisor, the worked curve as a whole and split at a segment, readings below, in and beyond it, and required solubilities
at its two ends and beyond. -/
theorem witness_PointArithmetic : (0 : Int) < 1280 ∧ strictlyRising workedCurve = true ∧ notFalling workedCurve = true ∧
    workedCurve = [⟨600, 211⟩] ++ ⟨800, 281⟩ :: ⟨1000, 363⟩ :: workedCurve.drop 3 ∧ ((800 : Int) < 801 ∧ (801 : Int) < 1000) ∧
    ((211 : Int) ≤ 211 ∧ (805 : Int) < 806 ∧ (211 : Int) < 282 ∧ (281 : Int) < 282 ∧ (282 : Int) ≤ 363) ∧ (0 : Int) ≤ 0 := by decide

/-- A saturation index below and at the warn limit, in each state; a clear count one short of 20, and at it. -/
theorem witness_AlarmStateMoved :
    let c := PointRecord.default
    let n (si : Int) (count : Nat) := if si < c.alarm - c.hysteresis then min 255 (count + 1) else 0
    ((999 : Int) < c.warn ∧ c.warn ≤ 1000) ∧ ((1049 : Int) < c.alarm - c.hysteresis ∧ c.clearPersistence ≤ n 1049 19) ∧
    ¬((1049 : Int) < c.alarm - c.hysteresis ∧ c.clearPersistence ≤ n 1049 18) ∧ (⟨.alarm, 0, 0, true⟩ : Alarm).state = .alarm := by decide

/-- A point with a usable temperature and a laboratory value, and one without. -/
theorem witness_ScmSnapshotProcessed :
    let p : Point := { Point.init { PointRecord.default with inUse := true, lab := true, unity := true } with labValue := some 600 }
    State.reset.todo.scm = false ∧ { State.reset.todo with scm := true }.scm = true ∧ (0 : Int) < 1 ∧ ((0 : Int) ≤ 0) ∧
    (p.cfg.inUse = true ∧ p.labValue = some 600 ∧ p.cfg.unity = true) ∧
    (Vector.replicate 96 (⟨5, .good, 0⟩ : Reading))[p.cfg.temp].quality ≠ .stale ∧ (Point.init p.cfg).labValue = none ∧
    PointRecord.default.inUse = false := by decide +kernel

/-! CAP -/

theorem witness_CaptureCommandTaken : State.reset.ready ∧ 2 < (3 : Byte).toNat ∧ (req [0]).payload = [0x00#8] ∧ (req [1]).payload = [0x01#8] ∧
    (req [2]).payload = [0x02#8] ∧ (req []).payload.length ≠ 1 := by decide

/-- A point newly in ALARM behind one that is not, a trip since the last snapshot; counts one short and at their ends. -/
theorem witness_CapSnapshotProcessed :
    let v : View := { State.reset.view with
      points := State.reset.view.points.set 3 { PointResult.init with state := .alarm, validity := .valid }, tripCount := 1 }
    let freshAt (p : PointNo) : Prop :=
      (v.points[p].state = .alarm ∧ v.points[p].validity ≠ .invalid) ∧ State.reset.cap.alarmMarks[p] = false
    let c : Capture := { State.reset.cap with cfg := { CaptureRecord.default with decimation := 2, postCount := 2 } }
    (freshAt 3 ∧ ∀ q, q < (3 : PointNo) → ¬freshAt q) ∧ v.tripCount ≠ State.reset.cap.lastTrips ∧
    (State.reset.cap.state = .stopped ∧ { State.reset.cap with state := .running }.state = .running) ∧
    (c.dec + 1 < c.cfg.decimation ∧ { c with dec := 1 }.cfg.decimation ≤ { c with dec := 1 }.dec + 1) ∧
    (c.post + 1 < c.cfg.postCount ∧ { c with post := 1 }.cfg.postCount ≤ { c with post := 1 }.post + 1) ∧ c.state ≠ .triggered := by
  decide +kernel

/-- A record of 17 words at the last word of a ring that holds two words. -/
theorem witness_RingReadsBack : Memory.wf [(0, 1), (4095, 2)] = true ∧ 4095 < 4096 ∧ (List.replicate 17 (5 : Word)).length ≤ 4096 ∧
    (20 < 4096) ∧ (∀ k, k < (List.replicate 17 (5 : Word)).length → (4095 + k) % 4096 ≠ 20) := by decide +kernel

/-! The tables and the reads -/

/-- Table 0 at entry 95 and 96; table 16; a table that CONFIG alone writes, and one that every mode writes; a WELL record, a
TIMING record and a CAPTURE record that are taken, and a CAPTURE record of the wrong length. -/
theorem witness_TableWritten : State.reset.ready ∧ (req [0]).payload.length < 2 ∧ (req [0, 95, 1]).payload = (0 : Byte) :: 95 :: [1] ∧
    (95 < 96 ∧ ¬(96 < 96)) ∧ ((9 : Byte).toNat ≤ 9 ∧ 9 < (10 : Byte).toNat) ∧
    WellRecord.read WellRecord.default.bytes = some .default ∧ TimingRecord.read TimingRecord.default.bytes = some .default ∧
    CaptureRecord.read CaptureRecord.default.bytes = some .default ∧
    CaptureRecord.default.bytes.length = 4 + 2 * (CaptureRecord.default.bytes.headD 0).toNat ∧ ([1, 2, 3] : List Byte).length < 4 ∧
    State.reset.cap.state = .stopped ∧ { State.reset.cap with state := .frozen }.state ≠ .stopped := by decide +kernel

/-- Records that are taken and records that are refused with BAD_VALUE, a field at its end and one beyond: PERMIT, HOLD, CLASS,
LOOP, TIMING, PLANT; a CURVE of two points, one whose solubility falls, one of the wrong length; a CAPTURE record with a source of
each end, and with one beyond. -/
theorem witness_TableRecords :
    let takes (ref : TableRef) (good bad : List Byte) : Bool :=
      decide ((ref.store good State.reset).1 = .ok ∧ (ref.store bad State.reset).1 = .badValue)
    takes (.permit 15) [15] [16] ∧ takes (.hold 15) [1] [2] ∧ takes (.cls 8) [3] [4] ∧
    takes .loop [3, 1, 4, 10, 0x27, 0x10] [3, 1, 4, 10, 0x27, 0x11] ∧
    takes .timing [0, 100, 2, 0x02, 0x58, 0, 0x36, 0xEE, 0x80] [0, 100, 2, 0x02, 0x58, 0, 0x36, 0xEE, 0x81] ∧
    takes .plant [3, 0xE8, 0, 200, 0, 1, 1, 0xF4, 1, 95, 255, 0, 9, 0x27, 0xC0]
      [3, 0xE8, 0, 201, 0, 1, 1, 0xF4, 1, 95, 255, 0, 9, 0x27, 0xC0] ∧
    takes (.channel 95) ChannelRecord.default.bytes (ChannelRecord.default.bytes.set 1 6) ∧
    takes (.output 63) OutputRecord.default.bytes (OutputRecord.default.bytes.set 2 28) ∧
    takes (.well 15) WellRecord.default.bytes (WellRecord.default.bytes.set 19 5) ∧
    takes (.point 7) PointRecord.default.bytes (PointRecord.default.bytes.set 12 0) ∧
    takes .heating HeatingRecord.default.bytes (HeatingRecord.default.bytes.set 1 96) ∧
    takes .turbine TurbineRecord.default.bytes (TurbineRecord.default.bytes.set 8 0) ∧
    takes .failsafe (List.replicate 54 0) (0x03 :: 0xE9 :: List.replicate 52 0) ∧
    takes (.curve 3) [2, 0xF5, 0x55, 0, 5, 0x4E, 0x20, 0, 5] [2, 0xF5, 0x55, 0, 5, 0x4E, 0x20, 0, 4] ∧
    takes .heatCurve [2, 0xF5, 0x55, 0, 5, 0x4E, 0x20, 0, 4] [2, 0, 5, 0, 5, 0, 5, 0, 4] ∧
    ((TableRef.curve 3).store [] State.reset).1 = .badLength ∧ ((TableRef.curve 3).store [2, 0] State.reset).1 = .badLength ∧
    takes .capture [2, 255, 3, 0, 0, 95, 4, 0] [2, 255, 3, 0, 0, 95, 5, 0] := by decide +kernel

/-- A LOOP record that is taken, and a CLASS entry. -/
theorem witness_RecordsReadBack : (writeTable 9 0 LoopRecord.default.bytes State.reset).1 = .ok ∧
    (writeTable 12 8 [0x03] State.reset).1 = .ok := by decide +kernel

/-- The first and last entries of each read, the greatest count, and one beyond. -/
theorem witness_ReadsAnswered : State.reset.ready ∧ ((req [15, 1]).payload = [15, 1] ∧ 15 + 1 ≤ 16 ∧ 16 < 15 + 2) ∧ ((8 : Byte).toNat ≤ 8 ∧ 8 < (9 : Byte).toNat) ∧
    (req [0, 1, 0]).payload = [0, 1, 0] ∧ (req [4]).payload = [4] ∧ (req []).payload = [] := by decide

/-! The invariants: a state of each, and a step from it that does something -/

theorem witness_QueueInvKept : QueueInv { State.reset with pending := [.resetPinLow] } ∧
    nextHas (step { State.reset with pending := [.resetPinLow] }) (fun t => t.held) = true := by decide +kernel

theorem witness_RingInvKept :
    let s := { State.reset with cap := { State.reset.cap with ring := [(0, 1), (4095, 2)], pos := 4095 } }
    RingInv s ∧ nextHas (step { s with pending := [.capProcessSnapshot] }) (fun _ => true) = true := by decide +kernel

theorem witness_EnergyInvKept :
    let s := { State.reset with hxu := { State.reset.hxu with energy := energyMax, residue := 3599999999 } }
    EnergyInv s ∧ nextHas (step { s with pending := [.hxuProcessSnapshot] }) (fun _ => true) = true := by decide +kernel

theorem witness_ChainInvKept :
    let s := withTgd fun g => { g with chain := ⟨.complete, .complete, .complete, .timing ⟨0, 5⟩, .incomplete⟩ }
    ChainInv s ∧ nextHas (step { s with pending := [.permissiveHoldExpiry .s4] }) (fun t => decide (t.tgd.chain.s4 = .complete)) = true :=
  ⟨⟨.inr rfl, fun _ => rfl, fun _ => rfl, fun _ => rfl, .inl rfl⟩, by decide +kernel⟩

theorem witness_StartInvKept : StartInv { State.reset with pending := [.staggerTimerExpiry] } ∧
    nextHas (step { State.reset with pending := [.staggerTimerExpiry] }) (fun _ => true) = true :=
  ⟨⟨by decide, by decide +kernel, by decide +kernel, by decide⟩, by decide +kernel⟩

theorem witness_CeilingInvKept : CeilingInv { State.reset with pending := [.wsvProcessSnapshot] } ∧
    nextHas (step { State.reset with pending := [.wsvProcessSnapshot] }) (fun _ => true) = true :=
  ⟨⟨by decide, by decide, trivial, trivial, by decide, fun _ => ⟨rfl, rfl, rfl, rfl, rfl, rfl⟩⟩, by decide +kernel⟩

theorem witness_StopValveInvKept : StopValveInv { State.reset with pending := [.blindTimerExpiry] } ∧
    nextHas (step { State.reset with pending := [.blindTimerExpiry] }) (fun _ => true) = true := by
  have h : ∀ o ∈ State.reset.out.outs.toList, o = Output.init .default := by
    intro o ho
    simpa [State.reset, State.powerOn] using ho
  refine ⟨⟨fun o ho _ => ?_, fun o ho _ => ?_, nofun, fun _ o ho _ => ?_, fun _ o ho _ => ?_, fun _ => ⟨rfl, fun o ho => ?_⟩⟩, by decide +kernel⟩
  all_goals rw [h o ho]
  all_goals decide

end Sys2Proof.Tests
end

/-! PROOFS. The field loop, the idle step, and the publication of a snapshot: lemmas about LIF's events, the line's transitions,
the transmitter, what is due at a time-base value, the conversion of a scan, and the statements they settle (R1 to R30, R36, R37,
R177). -/

namespace Sys2Proof.Machine

/-! ## The reset shared by entry into CONFIG and RESTART -/

/-- The state a role gives a well in CONFIG: none for UNUSED, else STOPPED (R75). -/
theorem Role.initState_eq (r : Role) : r.initState = if r = .unused then none else some .stopped := by
  cases r <;> rfl

@[simp] theorem Acq.reset_chan (a : Acq) (i : ChannelNo) : a.reset.chans[i] = Channel.init a.chans[i].cfg := by
  simp [Acq.reset]

@[simp] theorem Out.reset_out (u : Out) (i : OutputNo) : u.reset.outs[i] = Output.init u.outs[i].cfg := by
  simp [Out.reset]

@[simp] theorem Wsv.reset_well (v : Wsv) (view : View) (i : WellNo) :
    (v.reset view).wells[i] = Well.init v.wells[i].cfg v.wells[i].permit v.wells[i].hold := by
  simp [Wsv.reset]

@[simp] theorem Scm.reset_point (m : Scm) (i : PointNo) : m.reset.points[i] = Point.init m.points[i].cfg := by
  simp [Scm.reset]

/-- A judged line is low exactly when an entry asks for attention or the queue is half full (R160). -/
theorem Evq.judge_attnLow_iff (q : Evq) : q.judge.attnLow = true ↔
    (∃ x ∈ q.queue, q.classes[x.kind.cls].attend = true) ∨ 32 ≤ q.queue.length := by
  simp [Evq.judge, attention]

theorem State.resetView_eq (s : State) :
    s.resetView = View.init (s.wsv.wells.map fun w => if w.cfg.role = .unused then none else some .stopped) := by
  simp [State.resetView, Role.initState_eq]

/-- Settles O10, block by block: the runtime reset is a record of resets, and each block's reset is a lemma of its own. -/
theorem runtimeResetLeaves : Obligations.RuntimeResetLeaves := by
  intro s t zero result figures
  have hchan : ∀ i : ChannelNo, t.acq.chans[i] = Channel.init s.acq.chans[i].cfg := s.acq.reset_chan
  have hout : ∀ i : OutputNo, t.out.outs[i] = Output.init s.out.outs[i].cfg := s.out.reset_out
  have hwell : ∀ i : WellNo, t.wsv.wells[i] = Well.init s.wsv.wells[i].cfg s.wsv.wells[i].permit s.wsv.wells[i].hold :=
    s.wsv.reset_well s.resetView
  have hpoint : ∀ i : PointNo, t.scm.points[i] = Point.init s.scm.points[i].cfg := s.scm.reset_point
  have hline := s.evq.judge_attnLow_iff
  have hview := s.resetView_eq
  -- MBC and LIF
  refine ⟨rfl, rfl, rfl, rfl, rfl, rfl, rfl, rfl, rfl, rfl, rfl, ?_⟩
  -- TGD and the counts of ACQ
  refine ⟨rfl, rfl, rfl, rfl, rfl, rfl, rfl, rfl, rfl, rfl, rfl, rfl, rfl, rfl, rfl, rfl, rfl, ?_⟩
  -- the channels, outputs and wells
  refine ⟨hchan, hout, rfl, fun i => (hwell i).trans ?_, ?_⟩
  · simp [Well.init, Role.initState_eq]
  -- WSV
  refine ⟨rfl, rfl, rfl, rfl, rfl, rfl, rfl, rfl, rfl, rfl, rfl, hpoint, ?_⟩
  -- SCM and HXU
  refine ⟨rfl, rfl, rfl, rfl, rfl, rfl, rfl, rfl, rfl, rfl, rfl, rfl, rfl, rfl, rfl, rfl, rfl, rfl, rfl, rfl, rfl, rfl, rfl, ?_⟩
  -- CAP, EVQ, the view, and what is kept
  refine ⟨rfl, rfl, rfl, rfl, hline, hview, rfl, rfl, rfl, rfl, rfl, rfl, rfl, rfl⟩

/-! ## The rows of LIF out of reset -/

section rows

variable {s : State} (h : s.held = false)
include h

theorem exec_candidateMatch (p : Nat) (bits : Word) : exec (.candidateMatch p bits) s = .next (matchBits p bits s) := live_next _ h
theorem exec_candidateConfirm (w : CandidateWords) : exec (.candidateConfirm w) s = .next (judgeCandidate w s) := live_next _ h
theorem exec_candidateFail (w : CandidateWords) : exec (.candidateFail w) s = .next (judgeCandidate w s) := live_next _ h
theorem exec_huntIntervalExpiry : exec .huntIntervalExpiry s = .next (huntExpiry s) := live_next _ h
theorem exec_searchDwellExpiry : exec .searchDwellExpiry s = .next (dwellExpiry s) := live_next _ h
theorem exec_frameJudge (f : LoopFrame) : exec (.frameJudge f) s = .next (judgeFrame f s) := live_next _ h
theorem exec_lineSilenceTimeout : exec .lineSilenceTimeout s = .next (lineSilence s) := live_next _ h
theorem exec_blindTimerExpiry : exec .blindTimerExpiry s = .next (blindExpiry s) := live_next _ h
theorem exec_outboundScanStart : exec .outboundScanStart s = .next (scanStart s) := live_next _ h
theorem exec_outboundFrameStart : exec .outboundFrameStart s = .next (frameStart s) := live_next _ h

end rows

/-! ## Indices, codes and receive states -/

/-- Modulo 6 the index after an index is its successor. -/
@[simp] theorem nextIndex_eq (i : Fin 6) : nextIndex i = i + 1 := by revert i; decide

theorem validIndex_of_lt {n : Nat} (h : n < 6) : validIndex n = some ⟨n, h⟩ := dif_pos h

theorem validIndex_of_le {n : Nat} (h : 6 ≤ n) : validIndex n = none := dif_neg (by omega)

@[simp] theorem RxState.watches_iff (r : RxState) : r.watches = true ↔ r = .framed ∨ r = .locked := by
  cases r <;> simp [RxState.watches]

/-! ## The hunt for a frame boundary (R5 to R7) -/

theorem Lif.looking_iff (l : Lif) (p : Nat) : l.looking p = true ↔
    (l.rx = .hunt ∨ l.rx = .search) ∧ l.candidate = none ∧ l.ended = false ∧ l.huntFrom ≤ p := by
  simp [Lif.looking, and_assoc]

theorem matchBits_eq (p : Nat) (bits : Word) (s : State) : matchBits p bits s =
    if (s.lif.rx = .hunt ∨ s.lif.rx = .search) ∧ s.lif.candidate = none ∧ s.lif.ended = false ∧ s.lif.huntFrom ≤ p ∧
        bits = 0xB74C#16 then
      { s with lif := { s.lif with candidate := some p } }
    else if s.lif.rx = .framed ∨ s.lif.rx = .locked then { s with lif := s.lif.watchRun bits s.now } else s := by
  have hit : (s.lif.looking p && decide (bits = inboundAlign)) = true ↔ (s.lif.rx = .hunt ∨ s.lif.rx = .search) ∧
      s.lif.candidate = none ∧ s.lif.ended = false ∧ s.lif.huntFrom ≤ p ∧ bits = inboundAlign := by
    simp [Lif.looking_iff, and_assoc]
  exact if_congr hit rfl (if_congr s.lif.rx.watches_iff rfl rfl)

/-- The three tests of R5 on the words of a candidate. -/
def CandidatePasses (w : CandidateWords) : Prop :=
  serviceIndex w.service0 < 6 ∧ w.align1 = inboundAlign ∧
    serviceIndex w.service1 = (serviceIndex w.service0 + 1) % 6 ∧ w.align2 = inboundAlign

theorem CandidateWords.index_of_passes {w : CandidateWords} (h : CandidatePasses w) :
    CandidateWords.index w = some ⟨serviceIndex w.service0, h.1⟩ := by
  obtain ⟨hi, h1, hs, h2⟩ := h
  simp [CandidateWords.index, validIndex_of_lt hi, h1, h2, hs, Fin.val_add]

theorem CandidateWords.index_of_not_passes {w : CandidateWords} (h : ¬CandidatePasses w) : CandidateWords.index w = none := by
  by_cases hi : serviceIndex w.service0 < 6
  · have tests : ¬(w.align1 = inboundAlign ∧ serviceIndex w.service1 = (serviceIndex w.service0 + 1) % 6 ∧
        w.align2 = inboundAlign) := fun k => h ⟨hi, k⟩
    simpa [CandidateWords.index, validIndex_of_lt hi, Fin.val_add] using tests
  · simp [CandidateWords.index, validIndex_of_le (Nat.le_of_not_lt hi)]

/-- The code tried next: code 3 from HUNT, then 2, 1, 0 and 3 again (R6, R7). -/
def codeAfter : Option Rate → Rate
  | none => 3
  | some c => c - 1

theorem Lif.moveOn_eq (l : Lif) (now : Time) : l.moveOn now =
    { l with rx := .search, trial := some (codeAfter l.trial), hunt := none, candidate := none, huntFrom := 0, ended := false,
             dwell := some ⟨now, 6 * (7680 / 2 ^ (codeAfter l.trial).val)⟩ } := by
  have next : ∀ c : Rate, nextCode c = c - 1 := by decide
  cases h : l.trial <;> simp [Lif.moveOn, Lif.searchAt, frameUs_eq, codeAfter, next, h]

theorem Lif.underTest_eq (l : Lif) : l.underTest = if l.rx = .hunt ∨ l.rx = .search then l.candidate else none := by
  cases h : l.rx <;> simp [Lif.underTest, h]

theorem Lif.underTest_none_iff (l : Lif) :
    l.underTest = none ↔ (l.rx ≠ .hunt ∧ l.rx ≠ .search) ∨ l.candidate = none := by
  cases h : l.rx <;> simp [Lif.underTest, h]

/-- Without a candidate under test the row of a candidate's tests has no effect (log 4). -/
theorem judgeCandidate_none {s : State} (w : CandidateWords) (h : s.lif.underTest = none) : judgeCandidate w s = s := by
  simp [judgeCandidate, h]

theorem judgeCandidate_passes {s : State} {w : CandidateWords} {p : Nat} (hu : s.lif.underTest = some p) (h : CandidatePasses w) :
    judgeCandidate w s = confirmCandidate ⟨serviceIndex w.service0, h.1⟩ (w.service1.getLsbD 0) s := by
  simp [judgeCandidate, hu, CandidateWords.index_of_passes h]

theorem judgeCandidate_fails {s : State} {w : CandidateWords} {p : Nat} (hu : s.lif.underTest = some p) (h : ¬CandidatePasses w) :
    judgeCandidate w s = failCandidate p s := by
  simp [judgeCandidate, hu, CandidateWords.index_of_not_passes h]

/-- The index expected after a candidate with index i: two frames on. -/
theorem index_two_on {i : Nat} (h : i < 6) : nextIndex (nextIndex ⟨i, h⟩) = Fin.ofNat 6 (i + 2) := by
  ext; simp [Fin.val_add]

theorem huntExpiry_idle {s : State} (h : s.lif.rx ≠ .hunt ∨ s.lif.hunt = none) : huntExpiry s = s := by
  rcases h with h | h
  · unfold huntExpiry
    split
    · exact absurd ‹_› h
    · rfl
  · simp [huntExpiry, h]

theorem huntExpiry_runs {s : State} {t : Timer} (hr : s.lif.rx = .hunt) (ht : s.lif.hunt = some t) :
    huntExpiry s = { s.reachEnd t with lif :=
      if s.lif.cfg.autoRate then s.lif.endHunting (s.reachEnd t).now else { s.lif with hunt := none } } := by
  simp [huntExpiry, hr, ht]

theorem dwellExpiry_idle {s : State} (h : s.lif.rx ≠ .search ∨ s.lif.dwell = none) : dwellExpiry s = s := by
  rcases h with h | h
  · unfold dwellExpiry
    split
    · exact absurd ‹_› h
    · rfl
  · simp [dwellExpiry, h]

theorem dwellExpiry_runs {s : State} {t : Timer} (hr : s.lif.rx = .search) (ht : s.lif.dwell = some t) :
    dwellExpiry s = { s.reachEnd t with lif := s.lif.endHunting (s.reachEnd t).now } := by
  simp [dwellExpiry, hr, ht]

theorem Lif.endHunting_none {l : Lif} (now : Time) (h : l.candidate = none) : l.endHunting now = l.moveOn now := by
  simp [Lif.endHunting, h]

theorem Lif.endHunting_some {l : Lif} (now : Time) (h : l.candidate ≠ none) :
    l.endHunting now = { l with ended := true, hunt := none, dwell := none } := by
  obtain ⟨p, hp⟩ := Option.ne_none_iff_exists'.mp h
  simp [Lif.endHunting, hp]

/-- Settles O16: the match row by its two tests, the candidate's rows by whether its tests pass, the expiries by the receive
state. -/
theorem huntForFrames : Obligations.HuntForFrames := by
  have code_eq : ∀ x : Option Rate, (match x with | none => 3 | some c => c - 1 : Rate) = codeAfter x := by
    intro x; cases x <;> rfl
  refine ⟨fun s hs => ?_, fun s hs => ?_⟩
  · intro l code
    have hcode : code = codeAfter l.trial := code_eq _
    refine ⟨fun p bits => (exec_candidateMatch hs p bits).trans (congrArg _ (matchBits_eq p bits s)), ?_⟩
    intro w c hc i passes framed
    have hexec : exec c s = .next (judgeCandidate w s) := by
      rcases hc with rfl | rfl
      · exact exec_candidateConfirm hs w
      · exact exec_candidateFail hs w
    rw [hexec]
    refine ⟨fun idle => ?_, fun p hr hp => ?_⟩
    · rw [judgeCandidate_none w ((Lif.underTest_none_iff _).mpr idle)]
    · have hu : s.lif.underTest = some p := by rw [Lif.underTest_eq, if_pos hr]; exact hp
      have hframed : ∀ hi : i < 6, s.lif.enterFramed ⟨i, hi⟩ (w.service1.getLsbD 0) s.now = framed := fun hi => by
        simp only [Lif.enterFramed, index_two_on, framed]; rfl
      refine ⟨fun hw ht => ?_, fun hw x hx => ?_, fun hw he => ?_, fun hw he => ?_⟩
      · rw [judgeCandidate_passes hu hw, ← hframed hw.1]
        simp only [confirmCandidate, show s.lif.trial = none from ht]; rfl
      · rw [judgeCandidate_passes hu hw, ← hframed hw.1]
        simp only [confirmCandidate, show s.lif.trial = some x from hx]; rfl
      · rw [judgeCandidate_fails hu hw, failCandidate, if_neg (by simpa using he)]
      · rw [judgeCandidate_fails hu hw, failCandidate, if_pos he, Lif.moveOn_eq, hcode]
  · intro l code next
    have hcode : code = codeAfter l.trial := code_eq _
    have hnext : ∀ now, l.moveOn now = next now := fun now => by simp only [Lif.moveOn_eq, ← hcode, next]
    refine ⟨fun h => ?_, fun h => ?_, fun t hr ht => ?_, fun t hr ht => ?_⟩
    · rw [exec_huntIntervalExpiry hs, huntExpiry_idle h]
    · rw [exec_searchDwellExpiry hs, dwellExpiry_idle h]
    · rw [exec_huntIntervalExpiry hs, huntExpiry_runs hr ht]
      refine ⟨fun ha => ?_, fun ha hc => ?_, fun ha hc => ?_⟩
      · rw [if_neg (by simpa using ha)]
      · rw [if_pos ha, Lif.endHunting_none _ hc, hnext]
      · rw [if_pos ha, Lif.endHunting_some _ hc]
    · rw [exec_searchDwellExpiry hs, dwellExpiry_runs hr ht]
      refine ⟨fun hc => ?_, fun hc => ?_⟩
      · rw [Lif.endHunting_none _ hc, hnext]
      · rw [Lif.endHunting_some _ hc]

/-! ## Counting an error -/

section countError

variable (k : ErrorKind) (s : State)

/-- Counting an error changes LIF by its counter alone. -/
theorem countError_lif : (countError k s).lif =
    s.lif.setCounter k ((s.lif.counter k).bump (saturationOf s.lif.cfg.counterWidth)) := by
  simp [countError]

@[simp] theorem countError_now : (countError k s).now = s.now := by simp [countError]
@[simp] theorem countError_cfg : (countError k s).lif.cfg = s.lif.cfg := by rw [countError_lif]; cases k <;> rfl
@[simp] theorem countError_rx : (countError k s).lif.rx = s.lif.rx := by rw [countError_lif]; cases k <;> rfl
@[simp] theorem countError_expected : (countError k s).lif.expected = s.lif.expected := by rw [countError_lif]; cases k <;> rfl
@[simp] theorem countError_badAlign : (countError k s).lif.badAlign = s.lif.badAlign := by rw [countError_lif]; cases k <;> rfl
@[simp] theorem countError_run : (countError k s).lif.run = s.lif.run := by rw [countError_lif]; cases k <;> rfl
@[simp] theorem countError_qualifying : (countError k s).lif.qualifying = s.lif.qualifying := by
  rw [countError_lif]; cases k <;> rfl
@[simp] theorem countError_buffer : (countError k s).lif.buffer = s.lif.buffer := by rw [countError_lif]; cases k <;> rfl

end countError

/-! ## Leaving FRAMED and LOCKED (R8, R9, R13) -/

theorem Lif.enterHunt_eq (l : Lif) (now : Time) : l.enterHunt now = l.hunting now := by
  simp [Lif.enterHunt, Lif.discardScan, Lif.clearCounts, frameUs_eq]

theorem Lif.startBlind_eq (l : Lif) (now : Time) : l.startBlind now = { l with blindTimer := some (l.blindFrom now) } := by
  simp [Lif.startBlind, Lif.blindMs, minBlindMs, frameUs_eq]

theorem loseFrames_framed {s : State} (why : Int) (since : Time) (h : s.lif.rx = .framed) :
    loseFrames why since s = { s with lif := s.lif.hunting since } := by
  simp [loseFrames, h, Lif.enterHunt_eq]

theorem loseFrames_locked {s : State} (why : Int) (since : Time) (h : s.lif.rx = .locked) :
    loseFrames why since s =
      leftLocked why { s with lif := { s.lif.hunting since with blindTimer := some (s.lif.blindFrom since) } } := by
  simp [loseFrames, h, Lif.enterHunt_eq, Lif.startBlind_eq]

/-! ## Judging a frame (R8 to R12, R14) -/

section judged

variable {s : State} {f : LoopFrame}

theorem judgeFrame_watched (hr : s.lif.rx = .framed ∨ s.lif.rx = .locked) (hf : s.lif.fellSilent f s.now = false) :
    judgeFrame f s = judgeFramed f { s with lif := s.lif.watch f s.now } := by
  simp [judgeFrame, hr, hf]

theorem judgeFramed_badAlign (h : f.align ≠ 0xB74C#16) : judgeFramed f s = judgeBadAlign s := if_pos h

theorem judgeFramed_outOfSequence (ha : f.align = 0xB74C#16) (h : inSequence s.lif.expected (serviceIndex f.service) = none) :
    judgeFramed f s = judgeOutOfSequence (serviceIndex f.service) { s with lif := { s.lif with badAlign := 0 } } := by
  simp [judgeFramed, ha, inboundAlign, h]

theorem judgeFramed_inSequence {i : Fin 6} (ha : f.align = 0xB74C#16)
    (h : inSequence s.lif.expected (serviceIndex f.service) = some i) :
    judgeFramed f s = judgeInSequence i f { s with lif := { s.lif with badAlign := 0 } } := by
  simp [judgeFramed, ha, inboundAlign, h]

end judged

/-- Settles O17: below the loss count the frame counts as the expected one, at it the frames are lost. -/
theorem badAlignmentJudged : Obligations.BadAlignmentJudged := by
  intro s f hs hr hf ha s1 l
  have hjudge : judgeFrame f s = if s.lif.cfg.lossCount ≤ s.lif.badAlign + 1 then loseFrames 2 s.now { s1 with lif := l }
      else afterFrame s.lif.expected { s1 with lif := l } := by
    rw [judgeFrame_watched hr hf, judgeFramed_badAlign ha]
    simp [judgeBadAlign, s1, l, funext nextIndex_eq]
  have hrx : ({ s1 with lif := l } : State).lif.rx = s.lif.rx := by simp [l, s1]
  rw [exec_frameJudge hs, hjudge]
  refine ⟨fun below => ?_, fun loss => ⟨fun framed => ?_, fun locked => ?_⟩⟩
  · rw [if_neg (Nat.not_le.mpr below), afterFrame, hrx]
  · rw [if_pos loss, loseFrames_framed _ _ (hrx.trans framed)]
  · rw [if_pos loss, loseFrames_locked _ _ (hrx.trans locked)]

/-- No index 0..5 comes in sequence where none is expected but 6 and 7, or where another is expected (R9). -/
theorem inSequence_none {e : Option (Fin 6)} {n : Nat} (h : match e with | none => 6 ≤ n | some e => n ≠ e.val) :
    inSequence e n = none := by
  by_cases hn : n < 6
  · cases e with
    | none => exact absurd h (by dsimp only; omega)
    | some e => simpa [inSequence, validIndex_of_lt hn, Fin.ext_iff] using h
  · simp [inSequence, validIndex_of_le (Nat.le_of_not_lt hn)]

theorem inSequence_some {e : Option (Fin 6)} {i : Fin 6} (h : e = none ∨ e = some i) : inSequence e i.val = some i := by
  rcases h with rfl | rfl <;> simp [inSequence, validIndex_of_lt i.isLt]

/-- The index expected after a frame: its own plus one, and none after the invalid 6 and 7 (R9). -/
theorem validIndex_next (n : Nat) : (validIndex n).map nextIndex = if n < 6 then some (Fin.ofNat 6 (n + 1)) else none := by
  split
  · rw [validIndex_of_lt ‹_›]; ext; simp [Fin.ext_iff, Fin.val_add]
  · rw [validIndex_of_le (by omega)]; rfl

/-- Settles O18: the frame is counted and gives the expected index anew, and LOCKED falls to FRAMED. -/
theorem outOfSequenceJudged : Obligations.OutOfSequenceJudged := by
  intro s f hs hr hf ha i hseq s1 l
  have hnone : inSequence s.lif.expected (serviceIndex f.service) = none := inSequence_none hseq
  have hjudge : judgeFrame f s = judgeOutOfSequence i { s with lif := { s.lif.watch f s.now with badAlign := 0 } } :=
    (judgeFrame_watched hr hf).trans (judgeFramed_outOfSequence ha hnone)
  have hrx : s1.lif.rx = s.lif.rx := by simp [s1]
  rw [exec_frameJudge hs, hjudge]
  simp only [judgeOutOfSequence, validIndex_next]
  refine ⟨fun framed => ?_, fun locked => ?_⟩
  · rw [if_neg (by simp [framed])]
  · rw [if_pos (by simp [locked]), loseSequence, Lif.startBlind_eq, countError_now]
    rfl

@[simp] theorem takeFlags_lif (i : Fin 6) (station remote : Bool) (s : State) :
    (takeFlags i station remote s).lif = { s.lif with stationFault := station, remoteAlarm := remote } := by
  simp [takeFlags]

/-- The slots of frame i stand at the 28 positions of that frame (R11). -/
theorem placeSlots_eq (i : Fin 6) (slots : Vector Word 28) (b : ScanBuffer) : placeSlots i slots b =
    Vector.ofFn fun k : Fin 168 => if k.val / 28 = i.val then slots[k.val % 28]? else b[k] := by
  ext k hk; simp [placeSlots]

/-- In LOCKED the slots of a taken frame enter the scan (R11, R14). -/
theorem collect_locked {s : State} (expected : Option (Fin 6)) (taken : Bool) (i : Fin 6) (slots : Vector Word 28)
    (h : s.lif.rx = .locked) : collect expected taken i slots s = afterFrame expected
      (if taken then { s with lif := { s.lif with buffer := placeSlots i slots s.lif.buffer } } else s) := by
  rw [collect, if_pos h]
  cases taken <;> rfl

/-- In FRAMED the frame counts toward a qualifying scan (R10). -/
theorem collect_framed {s : State} (expected : Option (Fin 6)) (taken : Bool) (i : Fin 6) (slots : Vector Word 28)
    (h : s.lif.rx = .framed) : collect expected taken i slots s = qualify i s := by
  simp [collect, h]

theorem qualify_short {i : Fin 6} {s : State} (h : nextRun i s.lif.run < 6) :
    qualify i s = { s with lif := { s.lif with run := nextRun i s.lif.run } } := if_pos h

theorem qualify_first {i : Fin 6} {s : State} (h : 6 ≤ nextRun i s.lif.run) (hq : s.lif.qualifying = 0) :
    qualify i s = { s with lif := { s.lif with run := 0, qualifying := 1 } } := by
  simp [qualify, Nat.not_lt.mpr h, hq]

theorem qualify_second {i : Fin 6} {s : State} (h : 6 ≤ nextRun i s.lif.run) (hq : 1 ≤ s.lif.qualifying) :
    qualify i s = enterLocked { s with lif := { s.lif with run := 0, qualifying := s.lif.qualifying + 1 } } := by
  simp [qualify, Nat.not_lt.mpr h, hq]

/-- Settles O19: in LOCKED the frame is collected, in FRAMED it qualifies a scan. -/
theorem inSequenceJudged : Obligations.InSequenceJudged := by
  intro s f i hs hr hf ha hi hseq good start s1 b s2 run
  have hin : inSequence s.lif.expected (serviceIndex f.service) = some i := by
    rw [show serviceIndex f.service = i.val from hi]; exact inSequence_some hseq
  have hjudge : judgeFrame f s =
      collect s.lif.expected (good && !f.service.getLsbD 11) i f.slots s1 :=
    calc judgeFrame f s = judgeFramed f { s with lif := s.lif.watch f s.now } := judgeFrame_watched hr hf
      _ = judgeInSequence i f { s with lif := { s.lif.watch f s.now with badAlign := 0 } } := judgeFramed_inSequence ha hin
      _ = _ := by rw [judgeInSequence, nextIndex_eq]; rfl
  have keeps : s1.lif.rx = s.lif.rx ∧ s1.lif.buffer = s.lif.buffer ∧ s1.lif.run = s.lif.run ∧
      s1.lif.qualifying = s.lif.qualifying := by
    cases hg : good <;> simp [s1, start, hg]
  obtain ⟨hrx, hbuffer, hrun, hqual⟩ := keeps
  have hnext : nextRun i s1.lif.run = run := by rw [hrun]; rfl
  rw [exec_frameJudge hs, hjudge]
  refine ⟨fun locked => ?_, fun framed short => ?_, fun framed full first => ?_, fun framed full second => ?_⟩
  · have hs2 : s2.lif.rx = .locked := by
      simp only [s2]; split <;> exact hrx.trans locked
    rw [collect_locked _ _ _ _ (hrx.trans locked), placeSlots_eq, hbuffer]
    exact congrArg _ (if_congr (and_iff_right hs2) rfl rfl)
  · rw [collect_framed _ _ _ _ (hrx.trans framed), qualify_short (hnext ▸ short), hnext]
  · rw [collect_framed _ _ _ _ (hrx.trans framed), qualify_first (hnext ▸ full) (hqual.trans first)]
  · rw [collect_framed _ _ _ _ (hrx.trans framed), qualify_second (hnext ▸ full) (hqual ▸ second), hqual]

/-! ## The flags, LOCK, UNLOCK and BLIND -/

/-- Two blocks that act at one moment act one after the other, in one order or the other (log 7). -/
theorem eitherOrder_cases (f g : State → State) (s : State) :
    eitherOrder f g s = g (f { s with free := s.free + 1 }) ∨ eitherOrder f g s = f (g { s with free := s.free + 1 }) := by
  unfold eitherOrder
  cases Config.firstBlockFirst s.free
  · exact .inr rfl
  · exact .inl rfl

theorem StepState.isComplete_eq (x : StepState) : x.isComplete = decide (x = .complete) := by
  cases x <;> simp [StepState.isComplete]

/-- Settles O20: the definitions say the flags and LOCK; UNLOCK and the chain's return are two blocks acting at one moment. -/
theorem flagsAndLock : Obligations.FlagsAndLock := by
  refine ⟨fun i station remote s => rfl, ?_, ?_⟩
  · intro s s1 s2
    exact ⟨fun clear => if_neg (by simp [Lif.discardScan, clear]), fun blind => if_pos (by simp [Lif.discardScan, blind])⟩
  · intro why s free
    refine ⟨eitherOrder_cases _ _ s, ?_⟩
    rw [chainReset, StepState.isComplete_eq]
    rfl

/-! ## Line transitions in a run of bits (R1, R13) -/

/-- Bit n of a run differs from the one before it, where `level` stands before the first. -/
def ChangesAt (level : Bool) (bit : Nat → Bool) (n : Nat) : Prop := bit n ≠ if n = 0 then level else bit (n - 1)

section changes

variable {level : Bool} {bit : Nat → Bool} {bs : List Bool} (hb : ∀ n, n < bs.length → bs[n]? = some (bit n))
include hb

theorem getElem?_level_cons {n : Nat} (h : n ≤ bs.length) :
    (level :: bs)[n]? = some (if n = 0 then level else bit (n - 1)) := by
  cases n with
  | zero => rfl
  | succ n => simpa using hb n h

theorem getElem?_ne_iff_changesAt {n : Nat} (h : n < bs.length) :
    (level :: bs)[n + 1]? ≠ (level :: bs)[n]? ↔ ChangesAt level bit n := by
  rw [getElem?_level_cons hb h, getElem?_level_cons hb (Nat.le_of_lt h)]
  simp [ChangesAt]

/-- Without a change there is no last one. -/
theorem lastChange_eq_none (h : ∀ n, n < bs.length → ¬ChangesAt level bit n) : lastChange level bs = none := by
  cases hl : lastChange level bs with
  | none => rfl
  | some n =>
    obtain ⟨hn, hc, -⟩ := lastChange_some.mp hl
    exact absurd ((getElem?_ne_iff_changesAt hb hn).mp hc) (h n hn)

/-- A change after which there is none is the last one. -/
theorem lastChange_eq_some {n : Nat} (hn : n < bs.length) (hc : ChangesAt level bit n)
    (h : ∀ m, n < m → m < bs.length → ¬ChangesAt level bit m) : lastChange level bs = some n :=
  lastChange_some.mpr ⟨hn, (getElem?_ne_iff_changesAt hb hn).mpr hc, fun m hm hl =>
    not_not.mp fun k => h m hm hl ((getElem?_ne_iff_changesAt hb hl).mp k)⟩

/-- Up to the first change every bit stands at the level, so that no bit before it differs from the one before. -/
theorem not_changesAt_of_level {m n : Nat} (h : ∀ k, k < m → bs[k]? = some level) (hm : m ≤ bs.length) (hn : n < m) :
    ¬ChangesAt level bit n := by
  have at_level : ∀ k, k < m → bit k = level := fun k hk =>
    Option.some.inj ((hb k (by omega)).symm.trans (h k hk))
  cases n with
  | zero => simpa [ChangesAt] using at_level 0 hn
  | succ n => simp [ChangesAt, at_level n (by omega), at_level (n + 1) hn]

theorem firstChange_none_not_changesAt (h : firstChange level bs = none) {n : Nat} (hn : n < bs.length) :
    ¬ChangesAt level bit n := by
  refine not_changesAt_of_level hb (fun k hk => ?_) le_rfl hn
  rw [List.getElem?_eq_getElem hk, firstChange_none.mp h _ (List.getElem_mem hk)]

theorem firstChange_some_changesAt {m : Nat} (h : firstChange level bs = some m) :
    m < bs.length ∧ ChangesAt level bit m ∧ ∀ n, n < bs.length → ChangesAt level bit n → m ≤ n := by
  obtain ⟨hm, before⟩ := firstChange_some.mp h
  obtain ⟨hlen, -⟩ := List.getElem?_eq_some_iff.mp hm
  have hbit : bit m = !level := Option.some.inj ((hb m hlen).symm.trans hm)
  refine ⟨hlen, ?_, fun n hn hc => not_lt.mp fun k => not_changesAt_of_level hb before (Nat.le_of_lt hlen) k hc⟩
  cases m with
  | zero => simp [ChangesAt, hbit]
  | succ m =>
    have prev : bit m = level := Option.some.inj ((hb m (by omega)).symm.trans (before m (by omega)))
    simp [ChangesAt, hbit, prev]

end changes

/-- Bit n of a frame: word n / 16, most significant bit first (R1). -/
def frameBit (f : LoopFrame) (n : Nat) : Bool :=
  (if n / 16 = 0 then f.align else (f.slots[n / 16 - 1]?).getD f.service).getLsbD (15 - n % 16)

theorem frameBits_frameBit (f : LoopFrame) : ∀ n, n < (frameBits f).length → (frameBits f)[n]? = some (frameBit f n) :=
  fun n hn => frameBits_get f n (frameBits_length f ▸ hn)

theorem bitsSent_length (w : Word) : (bitsSent w).length = 16 := by simp [bitsSent]

theorem bitsSent_getLsbD (w : Word) : ∀ n, n < (bitsSent w).length → (bitsSent w)[n]? = some (w.getLsbD (15 - n)) :=
  fun n hn => bitsSent_get w n (bitsSent_length w ▸ hn)

/-- The line had fallen silent before a frame exactly when 2 frame times lie between the last transition and the frame's end, and
between it and every change of the frame: the first change is the one that counts. -/
theorem fellSilent_iff (l : Lif) (f : LoopFrame) (now : Time) : l.fellSilent f now = true ↔
    2 * frameUs l.selected < elapsed l.edge now ∧
      ∀ n, n < 480 → ChangesAt l.level (frameBit f) n →
        2 * frameUs l.selected + (480 - n) * bitUs l.selected < elapsed l.edge now := by
  have hb := frameBits_frameBit f
  have hlen := frameBits_length f
  rw [Lif.fellSilent_eq]
  cases h : firstChange l.level (frameBits f) with
  | none =>
    have none_changes : ∀ n, n < 480 → ¬ChangesAt l.level (frameBit f) n := fun n hn =>
      firstChange_none_not_changesAt hb h (hlen.symm ▸ hn)
    rw [silentUntil, decide_eq_true_eq]
    exact ⟨fun k => ⟨k, fun n hn hc => absurd hc (none_changes n hn)⟩, And.left⟩
  | some m =>
    obtain ⟨hm, hc, first⟩ := firstChange_some_changesAt hb h
    rw [hlen] at hm first
    rw [silentUntil, decide_eq_true_eq]
    refine ⟨fun k => ⟨by omega, fun n hn hc => ?_⟩, fun ⟨_, k⟩ => k m hm hc⟩
    have : (480 - n) * bitUs l.selected ≤ (480 - m) * bitUs l.selected :=
      Nat.mul_le_mul_right _ (Nat.sub_le_sub_left (first n hn hc) 480)
    omega

theorem watch_edge_of_no_change {l : Lif} {f : LoopFrame} (now : Time)
    (h : ∀ n, n < 480 → ¬ChangesAt l.level (frameBit f) n) : (l.watch f now).edge = l.edge :=
  Lif.edgeAfter_none (lastChange_eq_none (frameBits_frameBit f) ((frameBits_length f).symm ▸ h))

theorem watch_edge_of_last_change {l : Lif} {f : LoopFrame} {n : Nat} (now : Time) (hn : n < 480)
    (hc : ChangesAt l.level (frameBit f) n) (h : ∀ m, n < m → m < 480 → ¬ChangesAt l.level (frameBit f) m) :
    (l.watch f now).edge = now - BitVec.ofNat 48 ((480 - n) * bitUs l.selected) :=
  Lif.edgeAfter_some (lastChange_eq_some (frameBits_frameBit f) ((frameBits_length f).symm ▸ hn) hc
    ((frameBits_length f).symm ▸ h))

/-- A run of 16 bits brings no level before its first bit, so that a change stands at bits 1 to 15 alone. -/
theorem run_changesAt_iff (bits : Word) {n : Nat} (h : n < 16) :
    ChangesAt bits.msb (fun n => bits.getLsbD (15 - n)) n ↔ 1 ≤ n ∧ bits.getLsbD (15 - n) ≠ bits.getLsbD (16 - n) := by
  cases n with
  | zero =>
    have first : bits.getLsbD 15 = bits.msb := (BitVec.msb_eq_getLsbD_last bits).symm
    simpa [ChangesAt] using first
  | succ n =>
    have shift : 15 - (n + 1 - 1) = 16 - (n + 1) := by omega
    rw [ChangesAt, if_neg n.succ_ne_zero, shift]
    exact ⟨fun k => ⟨by omega, k⟩, And.right⟩

theorem watchRun_edge_of_no_change {bits : Word} (l : Lif) (now : Time)
    (h : ∀ n, 1 ≤ n → n < 16 → ¬bits.getLsbD (15 - n) ≠ bits.getLsbD (16 - n)) : (l.watchRun bits now).edge = l.edge := by
  refine Lif.edgeAfter_none (lastChange_eq_none (bitsSent_getLsbD bits) fun n hn k => ?_)
  rw [bitsSent_length] at hn
  obtain ⟨h1, hc⟩ := (run_changesAt_iff bits hn).mp k
  exact h n h1 hn hc

theorem watchRun_edge_of_last_change {bits : Word} {n : Nat} (l : Lif) (now : Time) (h1 : 1 ≤ n) (h16 : n < 16)
    (hc : bits.getLsbD (15 - n) ≠ bits.getLsbD (16 - n))
    (h : ∀ m, n < m → m < 16 → ¬bits.getLsbD (15 - m) ≠ bits.getLsbD (16 - m)) :
    (l.watchRun bits now).edge = now - BitVec.ofNat 48 ((16 - n) * bitUs l.selected) := by
  have hlen := bitsSent_length bits
  refine Lif.edgeAfter_some (lastChange_eq_some (bitsSent_getLsbD bits) (hlen.symm ▸ h16)
    ((run_changesAt_iff bits h16).mpr ⟨h1, hc⟩) fun m hm hl k => ?_)
  rw [hlen] at hl
  exact h m hm hl ((run_changesAt_iff bits hl).mp k).2

/-! ## A silent line (R13) -/

theorem Mode.drives_iff (m : Mode) : m.drives = true ↔ m = .supervise ∨ m = .leaving := by
  cases m <;> simp [Mode.drives]

theorem State.reachEnd_of_due {s : State} {t : Timer} (h : t.duration ≤ elapsed t.start s.now) : s.reachEnd t = s := by
  simp [State.reachEnd, Timer.due, h]

theorem State.reachEnd_of_running {s : State} {t : Timer} (h : elapsed t.start s.now < t.duration) :
    s.reachEnd t = { s with now := t.start + BitVec.ofNat 48 t.duration } := by
  simp [State.reachEnd, Timer.due, Nat.not_le.mpr h, Timer.endsAt]

theorem Lif.silence_eq (l : Lif) : l.silence = ⟨l.edge, 2 * (7680 / 2 ^ l.selected.val)⟩ := by
  rw [Lif.silence, frameUs_eq]

theorem lineSilence_watched {s : State} (h : s.lif.rx = .framed ∨ s.lif.rx = .locked) :
    lineSilence s = loseFrames 3 s.lif.silence.endsAt (s.reachEnd s.lif.silence) := if_pos ((RxState.watches_iff _).mpr h)

theorem lineSilence_idle {s : State} (h : ¬(s.lif.rx = .framed ∨ s.lif.rx = .locked)) : lineSilence s = s :=
  if_neg fun k => h ((RxState.watches_iff _).mp k)

theorem judgeFrame_idle {s : State} (f : LoopFrame) (h : ¬(s.lif.rx = .framed ∨ s.lif.rx = .locked)) : judgeFrame f s = s :=
  if_neg fun k => h ((RxState.watches_iff _).mp k)

/-- A frame before which the line had fallen silent is not judged: the silence, which has ended, is taken (R13). -/
theorem judgeFrame_silent {s : State} {f : LoopFrame} (hr : s.lif.rx = .framed ∨ s.lif.rx = .locked)
    (hf : s.lif.fellSilent f s.now = true) : judgeFrame f s = lineSilence s := by
  have ended : s.reachEnd s.lif.silence = s := State.reachEnd_of_due (Nat.le_of_lt ((fellSilent_iff _ _ _).mp hf).1)
  rw [lineSilence_watched hr, ended]
  simp [judgeFrame, hr, hf]

/-! ## BLIND (R17, R46, R104) -/

theorem outBlind_eq (s : State) : outBlind s =
    { s with out := if s.mbc.mode = .supervise ∨ s.mbc.mode = .leaving then s.out.enterFailSafe else s.out } := by
  unfold outBlind
  by_cases h : s.mbc.mode = .supervise ∨ s.mbc.mode = .leaving
  · rw [if_pos ((Mode.drives_iff _).mpr h), if_pos h]
  · rw [if_neg (mt (Mode.drives_iff _).mp h), if_neg h]

theorem blindExpiry_idle {s : State} (h : s.lif.blindTimer = none) : blindExpiry s = s := by simp [blindExpiry, h]

theorem blindExpiry_runs {s : State} {t : Timer} (h : s.lif.blindTimer = some t) : blindExpiry s =
    eitherOrder (raise .loopBlind 0 (t.duration / 1000 : Nat)) (takeCause .blind false)
      (outBlind { s.reachEnd t with lif := { s.lif with blindTimer := none, blind := true } }) := by
  simp [blindExpiry, h]

/-- Settles O21: the silence, the bits of a frame and of a run of 16, and the blind timer. -/
theorem lossOfLine : Obligations.LossOfLine := by
  refine ⟨fun s hs => ?_, fun l f now => ?_, fun l bits now => ?_, fun s hs => ?_⟩
  · intro t u
    have ht : s.reachEnd s.lif.silence = t := by rw [Lif.silence_eq]
    have hu : s.lif.silence.endsAt = u := by rw [Lif.silence_eq]; rfl
    rw [exec_lineSilenceTimeout hs]
    refine ⟨fun framed => ?_, fun locked => ?_, fun h1 h2 => ⟨?_, fun f => ?_⟩, fun f hr hf => ?_⟩
    · rw [lineSilence_watched (.inl framed), ht, hu, loseFrames_framed (s := t) _ _ framed]; rfl
    · rw [lineSilence_watched (.inr locked), ht, hu, loseFrames_locked (s := t) _ _ locked]; rfl
    · rw [lineSilence_idle (not_or.mpr ⟨h1, h2⟩)]
    · rw [exec_frameJudge hs, judgeFrame_idle f (not_or.mpr ⟨h1, h2⟩)]
    · rw [exec_frameJudge hs, judgeFrame_silent hr hf]
  · intro bit changes
    refine ⟨?_, ?_, watch_edge_of_no_change now, fun n => watch_edge_of_last_change now⟩
    · rw [fellSilent_iff, frameUs_eq]; rfl
    · simp [Lif.watch, bit]
  · exact ⟨rfl, watchRun_edge_of_no_change l now, fun n => watchRun_edge_of_last_change l now⟩
  · rw [exec_blindTimerExpiry hs]
    refine ⟨fun h => by rw [blindExpiry_idle h], fun t h => ?_⟩
    intro s1
    have order := eitherOrder_cases (raise .loopBlind 0 (t.duration / 1000 : Nat)) (takeCause .blind false)
      (outBlind { s.reachEnd t with lif := { s.lif with blindTimer := none, blind := true } })
    rw [← blindExpiry_runs h, outBlind_eq] at order
    exact order.imp (congrArg _) (congrArg _)

/-! ## The error counters and READ_LOOP (R15, R16) -/

/-- A counter brought to its top with the full mark clear is one that reaches the top and had no mark. -/
theorem ErrorCounter.bump_fills (top : Nat) (c : ErrorCounter) :
    ((c.bump top).full && !c.full) = (decide (top ≤ c.count + 1) && !c.full) := by
  cases h : c.full <;> simp [ErrorCounter.bump, h]

theorem Lif.counter_setCounter (l : Lif) (k j : ErrorKind) (c : ErrorCounter) :
    (l.setCounter k c).counter j = if j = k then c else l.counter j := by
  cases k <;> cases j <;> rfl

theorem loopBytes_length (s : State) : (loopBytes s).length = 9 := rfl

section readLoop

variable {r : Request} {s : State} (h : s.ready)
include h

/-- Both rows of READ_LOOP take the request and answer it (R173). -/
theorem exec_readLoop {c : Instr} (hc : c = .readLoop r ∨ c = .readLoopClear r) :
    exec c s = .next (fillBuffer 0x1A r (readLoop r.payload s.hears)) := by
  rw [← goodFrame_taken 0x1A readLoop r h.2, ← live_next _ h.1]
  rcases hc with rfl | rfl <;> rfl

end readLoop

theorem readLoop_badLength {p : List Byte} (s : State) (h : p.length ≠ 1) : readLoop p s = refuse .badLength s := by
  unfold readLoop
  split
  · exact absurd rfl h
  · rfl

theorem readLoop_badValue {o : Byte} (s : State) (h : 1 < o.toNat) : readLoop [o] s = refuse .badValue s := by
  have h0 : o ≠ 0 := by rintro rfl; exact absurd h (by decide)
  have h1 : o ≠ 1 := by rintro rfl; exact absurd h (by decide)
  exact (if_neg h0).trans (if_neg h1)

/-- Settles O23: the counting of an error, the counters read back, and READ_LOOP by its option. -/
theorem errorCountersAndReadLoop : Obligations.ErrorCountersAndReadLoop := by
  refine ⟨fun k s => ?_, Lif.counter_setCounter, fun r s c ready hc => ?_⟩
  · intro top c full
    unfold countError
    dsimp only
    rw [ErrorCounter.bump_fills]
    cases k <;> rfl
  · intro l rate rx bytes
    have hbytes : bytes = loopBytes s.hears := by
      have hmode : s.hears.mbc.mode = s.mbc.mode := rfl
      have hrate : (rate.val : Int) = if s.mbc.mode = .config then (l.cfg.rate.val : Int) else l.selected.val := by
        simp only [rate]; split <;> rfl
      have hrx : rx = l.rx.code := by simp only [rx]; cases l.rx <;> rfl
      simp only [bytes, loopBytes, hears_lif, hmode, hrx, hrate]
      rfl
    rw [exec_readLoop ready hc, hbytes]
    refine ⟨loopBytes_length _, fun hl => ?_, fun o ho hv => ?_, fun ho => ?_, fun ho => ?_⟩
    · rw [readLoop_badLength _ hl]; rfl
    · rw [ho, readLoop_badValue _ hv]; rfl
    · rw [ho]; rfl
    · rw [ho]; rfl

/-! ## The transmitter (R19, R20, R50) -/

theorem scanStart_idle {s : State} (h : s.lif.tx.timer = none ∨ s.lif.tx.next ≠ none) : scanStart s = s := by
  unfold scanStart
  split
  · next ht hn => simp [ht, hn] at h
  · rfl

theorem frameStart_idle {s : State} (h : s.lif.tx.timer = none ∨ s.lif.tx.next = none) : frameStart s = s := by
  unfold frameStart
  split
  · next ht hn => simp [ht, hn] at h
  · rfl

theorem scanStart_runs {s : State} {t : Timer} (ht : s.lif.tx.timer = some t) (hn : s.lif.tx.next = none) :
    scanStart s = { s.reachEnd t with lif := { s.lif with tx := { s.lif.tx with
      rate := s.lif.selected, next := some 0, slots := Vector.ofFn (slotValue s.mbc.mode s.out)
      bit11 := s.mbc.mode.drives && s.lif.blind } } } := by
  simp [scanStart, ht, hn]

theorem frameStart_runs {s : State} {t : Timer} {k : Fin 6} (ht : s.lif.tx.timer = some t) (hn : s.lif.tx.next = some k) :
    frameStart s = { s.reachEnd t with lif := { s.lif with tx := { s.lif.tx with
      timer := some ⟨t.endsAt, frameUs s.lif.tx.rate⟩, next := followingFrame k
      line := some (s.lif.tx.frame k (decide (s.lif.rx ≠ .locked))) } } } := by
  simp only [frameStart, ht, hn]
  rfl

/-- Frame f, slot n of a position is word 28f + n of the scan. -/
theorem Position.index_val (p : Position) : p.index.val = 28 * p.frame.val + p.slot.val := by
  simp [Position.index, Nat.mul_comm]

section slotValue

variable {mode : Mode} {u : Out} {k : Fin 168}

/-- In CONFIG and STANDBY every position carries the hold code (R20). -/
theorem slotValue_not_drives (h : mode.drives = false) : slotValue mode u k = 0x8000#16 := by
  simp [slotValue, h, holdCode]

/-- A position that no output in use has carries the hold code (R20). -/
theorem slotValue_unused (h : ∀ i : OutputNo, u.outs[i].cfg.inUse = true → u.outs[i].cfg.pos.index ≠ k) :
    slotValue mode u k = 0x8000#16 := by
  have hnone : (u.outs.toList.find? fun o => o.cfg.inUse && decide (o.cfg.pos.index = k)) = none := by
    rw [List.find?_eq_none]
    intro o ho
    obtain ⟨i, hi, rfl⟩ := List.mem_iff_getElem.mp ho
    have := h ⟨i, by simpa using hi⟩
    simpa using this
  unfold slotValue
  rw [hnone]
  split <;> rfl

/-- The one output in use at a position sends its line code there (R20, R50). -/
theorem slotValue_only (hd : mode.drives = true) (i : OutputNo) (hu : u.outs[i].cfg.inUse = true)
    (only : ∀ j : OutputNo, u.outs[j].cfg.inUse = true → u.outs[j].cfg.pos.index = u.outs[i].cfg.pos.index → j = i) :
    slotValue mode u u.outs[i].cfg.pos.index = u.outs[i].lineCode mode u.failSafe := by
  have hsome : (u.outs.toList.find? fun o => o.cfg.inUse && decide (o.cfg.pos.index = u.outs[i].cfg.pos.index)) =
      some u.outs[i] := by
    cases hf : u.outs.toList.find? fun o => o.cfg.inUse && decide (o.cfg.pos.index = u.outs[i].cfg.pos.index) with
    | none =>
      exact absurd (by simpa using hu) (List.find?_eq_none.mp hf u.outs[i] (by simp))
    | some o =>
      have hp := List.find?_some hf
      obtain ⟨j, hj, rfl⟩ := List.mem_iff_getElem.mp (List.mem_of_find?_eq_some hf)
      simp only [Bool.and_eq_true, decide_eq_true_eq] at hp
      have := only ⟨j, by simpa using hj⟩ hp.1 hp.2
      subst this
      rfl
  unfold slotValue
  rw [if_pos hd, hsome]

end slotValue

/-- The frame of an index as it goes out: its 28 words of the scan, and the service word over them (R19). -/
theorem Transmitter.frame_eq (t : Transmitter) (k : Fin 6) (bit12 : Bool) :
    let slots : Vector Word 28 := Vector.ofFn fun j : Fin 28 => t.slots[28 * k.val + j.val]
    t.frame k bit12 = ⟨0x58E3#16, slots, serviceWord k bit12 t.bit11 (checkByte slots)⟩ := by
  intro slots
  have hslots : (Vector.ofFn fun j : Fin 28 => t.slots[Position.index ⟨k, j⟩]) = slots := by
    ext j hj
    simp [slots, Position.index, Nat.mul_comm]
  rw [← hslots]
  rfl

theorem followingFrame_eq (k : Fin 6) : followingFrame k = if k = 5 then none else some (k + 1) := by
  rw [followingFrame, nextIndex_eq]

/-- Different positions have different places in the scan. -/
theorem Position.index_injective {p q : Position} (h : p.index = q.index) : p = q := by
  have hv := congrArg Fin.val h
  rw [Position.index_val, Position.index_val] at hv
  obtain ⟨pf, ps⟩ := p
  obtain ⟨qf, qs⟩ := q
  have := ps.isLt
  have := qs.isLt
  simp only [Position.mk.injEq, Fin.ext_iff] at hv ⊢
  omega

theorem Output.lineCode_drives {mode : Mode} (h : mode.drives = true) (failSafe : Bool) (o : Output) :
    o.lineCode mode failSafe =
      if o.outOfService then 0x8000#16 else BitVec.ofInt 16 (if failSafe then o.cfg.failSafe else o.issued) := by
  cases mode with
  | config => cases h
  | standby => cases h
  | supervise => rfl
  | leaving => rfl

/-- Through bit n of a frame its n-th bit stands on LTX (R1). -/
theorem Transmitter.level_frameBit {tx : Transmitter} {t : Timer} {f : LoopFrame} {now : Time} {n : Nat}
    (ht : tx.timer = some t) (hl : tx.line = some f) (hd : t.duration = frameUs tx.rate)
    (hn : elapsed t.start now / bitUs tx.rate = n) (h480 : n < 480) : tx.level now = frameBit f n := by
  have hpos : 0 < bitUs tx.rate := by generalize tx.rate = r; revert r; decide
  have running : elapsed t.start now < t.duration := by
    rw [hd, frameUs]
    exact (Nat.div_lt_iff_lt_mul hpos).mp (hn ▸ h480)
  have hbit : (frameBits f)[n]? = some (frameBit f n) := frameBits_frameBit f n ((frameBits_length f).symm ▸ h480)
  simp [Transmitter.level, ht, hl, Timer.due, Nat.not_le.mpr running, hn, hbit]

theorem Transmitter.level_idle {tx : Transmitter} (now : Time) (h : tx.timer = none ∨ tx.line = none) :
    tx.level now = true := by
  unfold Transmitter.level
  split
  · next ht hl => simp [ht, hl] at h
  · rfl

/-- Settles O22: the two starts, the level of LTX, the check byte, and the places of the positions. -/
theorem outboundStarts : Obligations.OutboundStarts := by
  refine ⟨fun s hs => ?_, fun tx now => ⟨tx.level_idle now, ?_⟩, fun slots => ?_, by decide +kernel, by decide +kernel,
    Position.index_val⟩
  · intro tx drives
    rw [exec_outboundScanStart hs, exec_outboundFrameStart hs]
    have hdrives : s.mbc.mode.drives = decide drives := by
      rw [Bool.eq_iff_iff, Mode.drives_iff, decide_eq_true_eq]
    refine ⟨fun h => by rw [scanStart_idle h], fun h => by rw [frameStart_idle h], fun t ht hn => ?_, fun t k ht hn => ?_⟩
    · refine ⟨Vector.ofFn (slotValue s.mbc.mode s.out), ?_, fun hd k => ?_, fun k hk => ?_, fun hd i hu only => ?_⟩
      · rw [scanStart_runs ht hn, hdrives]
      · simpa using slotValue_not_drives (by simpa [hdrives] using hd)
      · simpa using slotValue_unused hk
      · have hd' : s.mbc.mode.drives = true := by rw [hdrives]; exact decide_eq_true hd
        rw [← Output.lineCode_drives hd']
        simpa using slotValue_only hd' i hu fun j hj hp => only j hj (Position.index_injective hp)
    · intro slots service
      rw [frameStart_runs ht hn, Transmitter.frame_eq, followingFrame_eq, frameUs_eq]
      rfl
  · intro t f word bit ht hl hd hn
    have hw : (16 * word.val + bit.val) / 16 = word.val := by omega
    have hb : (16 * word.val + bit.val) % 16 = bit.val := by omega
    have hframe : 480 * (16 / 2 ^ tx.rate.val) = frameUs tx.rate := rfl
    rw [Transmitter.level_frameBit ht hl (hd.trans hframe) hn (by omega), frameBit, hw, hb]
  · rfl

/-! ## The idle step: what is due at a time-base value (log 2) -/

theorem Lif.silent_eq (l : Lif) (now : Time) : l.silent now = decide ((l.rx = .framed ∨ l.rx = .locked) ∧
    2 * (7680 / 2 ^ l.selected.val) ≤ elapsed l.edge now ∧ 7680 / 2 ^ l.selected.val < elapsed l.frameEnd now) := by
  rw [Bool.eq_iff_iff, decide_eq_true_eq]
  simp only [Lif.silent, Bool.and_eq_true, decide_eq_true_eq, RxState.watches_iff, frameUs_eq, and_assoc]

theorem Chain.due_eq (c : Chain) (now : Time) : c.due now =
    Instr.onlyIf (c.s2.due now) (.permissiveHoldExpiry .s2) ++ Instr.onlyIf (c.s3.due now) (.permissiveHoldExpiry .s3) ++
      Instr.onlyIf (c.s4.due now) (.permissiveHoldExpiry .s4) := by
  simp [Chain.due, Chain.step]

/-- A scan start, when one is due, comes before the frame it begins (R19). -/
theorem Transmitter.due_eq (t : Transmitter) (now : Time) : t.due now =
    Instr.onlyIf (dueAt now t.timer && decide (t.next = none)) .outboundScanStart ++
      Instr.onlyIf (dueAt now t.timer) .outboundFrameStart := by
  unfold Transmitter.due
  cases dueAt now t.timer <;> cases t.next <;> rfl

/-- The rows due, in their order, with the jobs, the chain and the transmitter written out. -/
theorem State.due_eq (s : State) : s.due =
    Instr.onlyIf s.todo.mbc .mbcProcessSnapshot ++ Instr.onlyIf s.todo.wsv .wsvProcessSnapshot
      ++ Instr.onlyIf s.todo.tgd .tgdProcessSnapshot ++ Instr.onlyIf s.todo.hxu .hxuProcessSnapshot
      ++ Instr.onlyIf s.todo.scm .scmProcessSnapshot ++ Instr.onlyIf s.todo.cap .capProcessSnapshot
      ++ Instr.onlyIf (s.clockTimer.due s.now) .clockAdvance
      ++ Instr.onlyIf (dueAt s.now s.mbc.hostTimer) .hostTimerExpiry
      ++ Instr.onlyIf (dueAt s.now s.lif.blindTimer) .blindTimerExpiry
      ++ Instr.onlyIf (dueAt s.now s.lif.hunt) .huntIntervalExpiry
      ++ Instr.onlyIf (dueAt s.now s.lif.dwell) .searchDwellExpiry
      ++ Instr.onlyIf (decide ((s.lif.rx = .framed ∨ s.lif.rx = .locked) ∧
          2 * (7680 / 2 ^ s.lif.selected.val) ≤ elapsed s.lif.edge s.now ∧
          7680 / 2 ^ s.lif.selected.val < elapsed s.lif.frameEnd s.now)) .lineSilenceTimeout
      ++ (List.finRange 16).flatMap (fun i => Instr.onlyIf (dueAt s.now s.wsv.wells[i].startTimer) (.startTimerExpiry i))
      ++ Instr.onlyIf (dueAt s.now s.wsv.stagger) .staggerTimerExpiry
      ++ Instr.onlyIf (s.tgd.chain.s2.due s.now) (.permissiveHoldExpiry .s2)
      ++ Instr.onlyIf (s.tgd.chain.s3.due s.now) (.permissiveHoldExpiry .s3)
      ++ Instr.onlyIf (s.tgd.chain.s4.due s.now) (.permissiveHoldExpiry .s4)
      ++ Instr.onlyIf (dueAt s.now s.lif.tx.timer && decide (s.lif.tx.next = none)) .outboundScanStart
      ++ Instr.onlyIf (dueAt s.now s.lif.tx.timer) .outboundFrameStart
      ++ Instr.onlyIf (dueAt s.now s.gapTimer) .gapAbandon ++ Instr.onlyIf (dueAt s.now s.replyTimer) .replySent := by
  simp only [State.due, Jobs.due, Wsv.due, Chain.due_eq, Transmitter.due_eq, Lif.silent_eq, List.append_assoc]

theorem step_idle_held {s : State} (hp : s.pending = []) (h : s.held = true) : step s = .next s := by
  simp [step, hp, tick, h]

theorem step_idle {s : State} (hp : s.pending = []) (h : s.held = false) :
    step s = .next { s with now := s.now + 1, pending := State.due { s with now := s.now + 1 } } := by
  simp [step, hp, tick, h]

/-- The rates of Table 11-1, by strap code. -/
theorem portRate_eq (straps : BitVec 2) : portRate straps = [57600, 115200, 230400, 460800].getD straps.toNat 0 := by
  revert straps; decide

/-- Settles O2: the idle step by the list of what is due, the end of a timer, and the two timers of the command port. -/
theorem timeBaseRuns : Obligations.TimeBaseRuns := by
  refine ⟨fun s hp => ⟨step_idle_held hp, fun h => ?_⟩, fun s t => ⟨State.reachEnd_of_due, State.reachEnd_of_running⟩,
    fun s => ?_⟩
  · intro now unitMs add ends holds due
    have hclock : s.mbc.timing.resolution.ms = unitMs := by
      simp only [unitMs]; cases s.mbc.timing.resolution <;> rfl
    have hends : dueAt now = ends := by funext x; cases x <;> rfl
    have hholds : ∀ x : StepState, x.due now = holds x := by intro x; cases x <;> rfl
    have hdue : State.due { s with now := now } = due := by
      rw [State.due_eq]
      simp only [State.clockTimer, State.clockUnit, Timer.due, hclock, hends, hholds]
      rfl
    rw [step_idle hp h, hdue]
  · intro rate
    refine ⟨?_, rfl⟩
    have hgap : gapUs s.straps = 2000 + 10000000 / rate + 1 := by rw [gapUs, byteUs, portRate_eq]
    rw [State.gapTimer, hgap]
    cases s.cpt.rx <;> rfl

/-! ## The jobs complete before a publication (R36) -/

/-- The blocks that the six jobs change. -/
abbrev jobParts : List Part := [.todo, .mbc, .wsv, .tgd, .hxu, .scm, .cap, .out, .evq]

theorem catchUp_jobs (s : State) : Frame jobParts s (catchUp s) :=
  ((mbcProcess_frame s).mono (by decide)).trans <| ((wsvProcess_frame _).mono (by decide)).trans <|
    ((tgdProcess_frame _).mono (by decide)).trans <| ((hxuProcess_frame _).mono (by decide)).trans <|
    ((scmProcess_frame _).mono (by decide)).trans ((capProcess_frame _).mono (by decide))

section jobs

variable {s : State}

@[simp] theorem mbcProcess_held : (mbcProcess s).held = s.held := (mbcProcess_frame s).same .held (by decide)
@[simp] theorem wsvProcess_held : (wsvProcess s).held = s.held := (wsvProcess_frame s).same .held (by decide)
@[simp] theorem tgdProcess_held : (tgdProcess s).held = s.held := (tgdProcess_frame s).same .held (by decide)
@[simp] theorem hxuProcess_held : (hxuProcess s).held = s.held := (hxuProcess_frame s).same .held (by decide)
@[simp] theorem scmProcess_held : (scmProcess s).held = s.held := (scmProcess_frame s).same .held (by decide)

theorem exec_mbcProcessSnapshot (h : s.held = false) : exec .mbcProcessSnapshot s = .next (mbcProcess s) := live_next _ h
theorem exec_wsvProcessSnapshot (h : s.held = false) : exec .wsvProcessSnapshot s = .next (wsvProcess s) := live_next _ h
theorem exec_tgdProcessSnapshot (h : s.held = false) : exec .tgdProcessSnapshot s = .next (tgdProcess s) := live_next _ h
theorem exec_hxuProcessSnapshot (h : s.held = false) : exec .hxuProcessSnapshot s = .next (hxuProcess s) := live_next _ h
theorem exec_scmProcessSnapshot (h : s.held = false) : exec .scmProcessSnapshot s = .next (scmProcess s) := live_next _ h
theorem exec_capProcessSnapshot (h : s.held = false) : exec .capProcessSnapshot s = .next (capProcess s) := live_next _ h

/-- The rows of the six jobs, one after the other, are the catching up before a publication (log 5). -/
theorem exec_jobs (h : s.held = false) :
    [Instr.mbcProcessSnapshot, .wsvProcessSnapshot, .tgdProcessSnapshot, .hxuProcessSnapshot, .scmProcessSnapshot,
        .capProcessSnapshot].foldl (fun (o : Host.Outcome State Fault Refusal) c => match o with
      | .next u => exec c u
      | x => x) (.next s) = .next (catchUp s) := by
  simp [h, exec_mbcProcessSnapshot, exec_wsvProcessSnapshot, exec_tgdProcessSnapshot, exec_hxuProcessSnapshot,
    exec_scmProcessSnapshot, exec_capProcessSnapshot, catchUp]

end jobs

/-! ## The interval of a snapshot (R24) -/

section interval

variable {a : Acq} {continuous : Bool} {now : Time} {free : Nat}

theorem measureInterval_none (h : continuous = false ∨ a.prevStamp = none) :
    a.measureInterval continuous now free = (none, false) := by
  unfold Acq.measureInterval
  split
  · next hp => simp [hp] at h
  · rfl

theorem measureInterval_held {x : Time} (hc : continuous = true) (hp : a.prevStamp = some x) (h : elapsed x now < 2 ^ 32) :
    a.measureInterval continuous now free = (some (BitVec.ofNat 32 (elapsed x now)), false) := by
  simp only [Acq.measureInterval, hc, hp]
  exact if_pos h

theorem measureInterval_free {x : Time} (hc : continuous = true) (hp : a.prevStamp = some x) (h : 2 ^ 32 ≤ elapsed x now) :
    a.measureInterval continuous now free = (some (Config.interval free), true) := by
  simp only [Acq.measureInterval, hc, hp]
  exact if_neg (Nat.not_lt.mpr h)

end interval

/-! ## The conversion of a scan (R23, R25 to R30) -/

/-- Raising events reads the queue and the plant clock alone. -/
theorem raiseAll_evq (es : List Report) (s : State) : (raiseAll es s).evq =
    es.foldl (fun q e => q.take
      { kind := e.kind, subject := BitVec.ofInt 16 e.subject, param := BitVec.ofInt 32 e.param, stamp := s.clk.count }) s.evq := by
  induction es generalizing s with
  | nil => rfl
  | cons e es ih => exact ih (raiseOne s e)

/-- What a channel in use converts to in a state: the channel and its events. -/
def conversion (scan : ScanBuffer) (s : State) (i : ChannelNo) : Channel × List Report :=
  s.acq.chans[i].convert s.acq.first scan[s.acq.chans[i].cfg.pos.index] i

theorem convertChannel_unused {scan : ScanBuffer} {s : State} {i : ChannelNo} (h : s.acq.chans[i].cfg.inUse = false) :
    convertChannel scan s i = s := by
  simp only [convertChannel, h, Bool.not_false, if_true]

theorem convertChannel_used {scan : ScanBuffer} {s : State} {i : ChannelNo} (h : s.acq.chans[i].cfg.inUse = true) :
    convertChannel scan s i = raiseAll (conversion scan s i).2 (s.setChannel i (conversion scan s i).1) := by
  simp only [convertChannel, h, Bool.not_true]
  rfl

theorem convertChannel_acq (scan : ScanBuffer) (s : State) (i : ChannelNo) :
    (convertChannel scan s i).acq = { s.acq with chans := (convertChannel scan s i).acq.chans } := by
  cases h : s.acq.chans[i].cfg.inUse
  · rw [convertChannel_unused h]
  · rw [convertChannel_used h, raiseAll_acq]; rfl

/-- The conversion of one channel leaves every other channel. -/
theorem convertChannel_other (scan : ScanBuffer) (s : State) {i j : ChannelNo} (h : j ≠ i) :
    (convertChannel scan s i).acq.chans[j] = s.acq.chans[j] := by
  have hv : i.val ≠ j.val := fun k => h (Fin.ext k.symm)
  cases hu : s.acq.chans[i].cfg.inUse
  · rw [convertChannel_unused hu]
  · simp [convertChannel_used hu, State.setChannel, hv]

theorem convertChannel_same (scan : ScanBuffer) (s : State) (i : ChannelNo) : (convertChannel scan s i).acq.chans[i] =
    if s.acq.chans[i].cfg.inUse then (conversion scan s i).1 else s.acq.chans[i] := by
  cases hu : s.acq.chans[i].cfg.inUse
  · rw [convertChannel_unused hu]; rfl
  · simp [convertChannel_used hu, State.setChannel]

/-- The events of one channel raised in a state, for the conversion that another state gives it. -/
def raiseConversion (scan : ScanBuffer) (s u : State) (i : ChannelNo) : State :=
  if s.acq.chans[i].cfg.inUse then raiseAll (conversion scan s i).2 u else u

theorem convertChannel_evq (scan : ScanBuffer) (s : State) (i : ChannelNo) {u : State} (hq : s.evq = u.evq)
    (hc : s.clk = u.clk) : (convertChannel scan s i).evq = (raiseConversion scan s u i).evq := by
  unfold raiseConversion
  cases hu : s.acq.chans[i].cfg.inUse
  · rw [convertChannel_unused hu]; exact hq
  · rw [convertChannel_used hu, if_pos rfl, raiseAll_evq, raiseAll_evq, setChannel_clk, setChannel_evq, hq, hc]

@[simp] theorem convertChannel_clk (scan : ScanBuffer) (s : State) (i : ChannelNo) : (convertChannel scan s i).clk = s.clk :=
  (convertChannel_frame scan s i).same .clk (by decide)

@[simp] theorem raiseConversion_clk (scan : ScanBuffer) (s u : State) (i : ChannelNo) :
    (raiseConversion scan s u i).clk = u.clk := by
  unfold raiseConversion; split <;> simp

/-- While the channels of a list still stand as they did, their conversion is what it was. -/
theorem conversion_congr {scan : ScanBuffer} {s u : State} {i : ChannelNo} (hf : u.acq.first = s.acq.first)
    (hi : u.acq.chans[i] = s.acq.chans[i]) : conversion scan u i = conversion scan s i := by
  simp only [conversion, hf, hi]

theorem convertChannel_first (scan : ScanBuffer) (s : State) (i : ChannelNo) :
    (convertChannel scan s i).acq.first = s.acq.first := by rw [convertChannel_acq]

/-- A conversion changes the channels of ACQ alone. -/
theorem foldl_convertChannel_acq (scan : ScanBuffer) : ∀ (l : List ChannelNo) (u : State),
    (l.foldl (convertChannel scan) u).acq = { u.acq with chans := (l.foldl (convertChannel scan) u).acq.chans }
  | [], _ => rfl
  | i :: l, u => by rw [List.foldl_cons, foldl_convertChannel_acq scan l, convertChannel_acq]

/-- Channels converted one after the other each convert as they stood at the beginning. -/
theorem foldl_convertChannel_chans (scan : ScanBuffer) (s : State) (j : ChannelNo) : ∀ (l : List ChannelNo) (u : State),
    l.Nodup → u.acq.first = s.acq.first → (∀ i ∈ l, u.acq.chans[i] = s.acq.chans[i]) →
    (l.foldl (convertChannel scan) u).acq.chans[j] = if j ∈ l then
      (if s.acq.chans[j].cfg.inUse then (conversion scan s j).1 else s.acq.chans[j]) else u.acq.chans[j]
  | [], _, _, _, _ => by simp
  | i :: l, u, nodup, hf, hl => by
    obtain ⟨fresh, nodup⟩ := List.nodup_cons.mp nodup
    have rest : ∀ k ∈ l, (convertChannel scan u i).acq.chans[k] = s.acq.chans[k] := fun k hk =>
      (convertChannel_other scan u (ne_of_mem_of_not_mem hk fresh)).trans (hl k (List.mem_cons_of_mem i hk))
    rw [List.foldl_cons, foldl_convertChannel_chans scan s j l _ nodup ((convertChannel_first scan u i).trans hf) rest]
    by_cases hj : j = i
    · subst hj
      have hi := hl j List.mem_cons_self
      rw [if_neg fresh, if_pos List.mem_cons_self, convertChannel_same, conversion_congr hf hi, hi]
    · rw [convertChannel_other scan u hj]
      simp [hj]

/-- Their events are those of the channels as they stood at the beginning, in the order of the list. -/
theorem foldl_convertChannel_evq (scan : ScanBuffer) (s : State) : ∀ (l : List ChannelNo) (u v : State),
    l.Nodup → u.acq.first = s.acq.first → (∀ i ∈ l, u.acq.chans[i] = s.acq.chans[i]) → u.evq = v.evq → u.clk = v.clk →
    (l.foldl (convertChannel scan) u).evq = (l.foldl (raiseConversion scan s) v).evq
  | [], _, _, _, _, _, hq, _ => hq
  | i :: l, u, v, nodup, hf, hl, hq, hc => by
    obtain ⟨fresh, nodup⟩ := List.nodup_cons.mp nodup
    have hi := hl i List.mem_cons_self
    have same : raiseConversion scan u v i = raiseConversion scan s v i := by
      rw [raiseConversion, raiseConversion, conversion_congr hf hi, hi]
    refine foldl_convertChannel_evq scan s l _ _ nodup ((convertChannel_first scan u i).trans hf) (fun k hk => ?_) ?_ ?_
    · exact (convertChannel_other scan u (ne_of_mem_of_not_mem hk fresh)).trans (hl k (List.mem_cons_of_mem i hk))
    · rw [convertChannel_evq scan u i hq hc, same]
    · rw [convertChannel_clk, raiseConversion_clk, hc]

/-! ## The publication (R14, R23, R24, R37) -/

/-- A state whose jobs have completed, with the snapshot counted and the scan converted, before the view is fixed. -/
def converted (s : State) : State :=
  (List.finRange 96).foldl (convertChannel s.lif.buffer) (countSnapshot s.lif.continuous (catchUp s))

/-- The view fixed, and the scan buffer emptied (R14, R37). -/
def published (u : State) : State :=
  { fixView u with lif := { u.lif with buffer := Vector.replicate 168 none, continuous := true } }

theorem handOver_eq (s : State) : handOver s = published (converted s) := by
  unfold handOver handover converted
  generalize (List.finRange 96).foldl (convertChannel s.lif.buffer) (countSnapshot s.lif.continuous (catchUp s)) = u
  rfl

theorem countSnapshot_acq (c : Bool) (s : State) : (countSnapshot c s).acq =
    { s.acq with
      number := s.acq.number + 1, prevStamp := some s.now
      interval := (s.acq.measureInterval c s.now s.free).1 } := rfl

theorem countSnapshot_free (c : Bool) (s : State) : (countSnapshot c s).free =
    if (s.acq.measureInterval c s.now s.free).2 then s.free + 1 else s.free := rfl

section converted

variable (s : State)

/-- Counting and converting change ACQ and the queue beside the count of free values. -/
theorem converted_frame : Frame [.acq, .evq, .free] (catchUp s) (converted s) := by
  have counted : Frame [.acq, .evq, .free] (catchUp s) (countSnapshot s.lif.continuous (catchUp s)) := by
    refine ⟨fun p hp => ?_⟩
    cases p <;> first | rfl | simp at hp
  exact counted.then (Frame.foldl (convertChannel_frame s.lif.buffer) _ _) (by decide)

theorem catchUp_acq : (catchUp s).acq = s.acq := (catchUp_jobs s).same .acq (by decide)
theorem catchUp_now : (catchUp s).now = s.now := (catchUp_jobs s).same .now (by decide)

theorem counted_first : (countSnapshot s.lif.continuous (catchUp s)).acq.first = s.acq.first := by
  rw [countSnapshot_acq, catchUp_acq]

theorem counted_chan (i : ChannelNo) : (countSnapshot s.lif.continuous (catchUp s)).acq.chans[i] = s.acq.chans[i] := by
  rw [countSnapshot_acq, catchUp_acq]

/-- The interval and whether it is a free value, as the handover measures them (R24). -/
def handoverInterval (s : State) : Option (BitVec 32) × Bool :=
  s.acq.measureInterval s.lif.continuous s.now (catchUp s).free

/-- ACQ after the conversion: number, stamp and interval of the snapshot, and the channels. -/
theorem converted_acq : (converted s).acq =
    { s.acq with
      number := s.acq.number + 1, prevStamp := some s.now, interval := (handoverInterval s).1
      chans := (converted s).acq.chans } := by
  have kept := foldl_convertChannel_acq s.lif.buffer (List.finRange 96) (countSnapshot s.lif.continuous (catchUp s))
  rw [countSnapshot_acq, catchUp_acq, catchUp_now] at kept
  unfold converted
  exact kept

theorem converted_free : (converted s).free = if (handoverInterval s).2 then (catchUp s).free + 1 else (catchUp s).free := by
  have kept : (converted s).free = (countSnapshot s.lif.continuous (catchUp s)).free :=
    (Frame.foldl (convertChannel_frame s.lif.buffer) _ _).same .free (by decide)
  rw [kept, countSnapshot_free, catchUp_acq, catchUp_now]
  rfl

theorem converted_chans (j : ChannelNo) : (converted s).acq.chans[j] =
    if s.acq.chans[j].cfg.inUse then (conversion s.lif.buffer s j).1 else s.acq.chans[j] := by
  have h := foldl_convertChannel_chans s.lif.buffer s j (List.finRange 96) (countSnapshot s.lif.continuous (catchUp s))
    (List.nodup_finRange 96) (counted_first s) fun i _ => counted_chan s i
  rw [if_pos (List.mem_finRange j)] at h
  unfold converted
  exact h

theorem converted_evq : (converted s).evq =
    ((List.finRange 96).foldl (raiseConversion s.lif.buffer s) (catchUp s)).evq :=
  foldl_convertChannel_evq s.lif.buffer s (List.finRange 96) (countSnapshot s.lif.continuous (catchUp s)) (catchUp s)
    (List.nodup_finRange 96) (counted_first s) (fun i _ => counted_chan s i) rfl rfl

end converted

/-- The laboratory value a publication takes up is no part of a point's result. -/
theorem Point.takeLab_res (p : Point) : p.takeLab.res = p.res := by
  unfold Point.takeLab; split <;> rfl

theorem Scm.takeLabs_point (m : Scm) (i : PointNo) : m.takeLabs.points[i] = m.points[i].takeLab := by simp [Scm.takeLabs]

theorem Scm.takeLabs_res (m : Scm) : m.takeLabs.points.map Point.res = m.points.map Point.res := by
  simp [Scm.takeLabs, Function.comp_def, Point.takeLab_res]

theorem Out.clearRise_out (u : Out) (i : OutputNo) : u.clearRise.outs[i] = { u.outs[i] with rise := false } := by
  simp [Out.clearRise]

/-- The view of a publication: the snapshot, the channels, and every block's published record as it stands (Table 2-6). -/
theorem published_view (u : State) : (published u).view = u.snapshotView u.acq.number u.now u.acq.interval := by
  simp only [published, fixView, State.snapshotView, Scm.takeLabs_res]
  rfl

/-- Settles O25: the jobs complete, the scan is converted, and the view is fixed; what the middle part leaves unchanged is as the
jobs leave it. -/
theorem snapshotPublished : Obligations.SnapshotPublished := by
  intro s hs t conv
  have ht : t = published (converted s) := handOver_eq s
  refine ⟨catchUp s, exec_jobs hs, ?_⟩
  have hacq := converted_acq s
  have hfree := converted_free s
  have hchans := converted_chans s
  have hevq := converted_evq s
  have hframe := converted_frame s
  have hjobs := catchUp_jobs s
  unfold handoverInterval at hacq hfree
  clear_value t
  subst ht
  generalize converted s = u at *
  generalize catchUp s = s0 at *
  have hnumber : u.acq.number = s.acq.number + 1 := congrArg Acq.number hacq
  have hinterval := congrArg Acq.interval hacq
  have hnow : u.now = s.now := (hframe.same .now (by decide)).trans (hjobs.same .now (by decide))
  have hlif : u.lif = s.lif := (hframe.same .lif (by decide)).trans (hjobs.same .lif (by decide))
  have hmbc : u.mbc = s0.mbc := hframe.same .mbc (by decide)
  have hwsv : u.wsv = s0.wsv := hframe.same .wsv (by decide)
  have htgd : u.tgd = s0.tgd := hframe.same .tgd (by decide)
  have hhxu : u.hxu = s0.hxu := hframe.same .hxu (by decide)
  have hscm : u.scm = s0.scm := hframe.same .scm (by decide)
  have hout : u.out = s0.out := hframe.same .out (by decide)
  have hfailSafe : u.out.failSafe = s0.out.failSafe := congrArg Out.failSafe hout
  refine ⟨hnumber, congrArg Acq.prevStamp hacq, rfl, fun h => ?_, fun x hc hp h => ?_, fun x hc hp h => ?_, hchans, hevq, ?_,
    rfl, fun i => ?_, hfailSafe, fun i => ?_, ?_, ?_, hnow, hmbc, htgd, hhxu,
    (hframe.same .clk (by decide)).trans (hjobs.same .clk (by decide)), hframe.same .cap (by decide), hwsv,
    (hframe.same .cpt (by decide)).trans (hjobs.same .cpt (by decide)),
    (hframe.same .straps (by decide)).trans (hjobs.same .straps (by decide)),
    ((hframe.same .held (by decide)).trans (hjobs.same .held (by decide))).trans hs,
    (hframe.same .pending (by decide)).trans (hjobs.same .pending (by decide))⟩
  · rw [measureInterval_none h] at hinterval hfree
    exact ⟨hinterval, hfree⟩
  · rw [measureInterval_held hc hp h] at hinterval hfree
    exact ⟨hinterval, hfree⟩
  · rw [measureInterval_free hc hp h] at hinterval hfree
    exact ⟨_, hinterval, hfree⟩
  · rw [published_view, State.snapshotView, hnumber, hnow, hmbc, hwsv, htgd, hhxu, hscm]
    rfl
  · rw [← hout]
    exact u.out.clearRise_out i
  · rw [← hscm]
    exact u.scm.takeLabs_point i
  · rw [← hscm]
    rfl
  · rw [← hlif]
    rfl

end Sys2Proof.Machine

/-! PROOFS. The channel table and the reads: the conversion of one channel, the requests on channels, and what the nine reads
answer byte by byte (R25 to R35, R51, R65, R97, R117, R133, R152, R168, R175). -/

namespace Sys2Proof.Machine

/-! ## A request taken and answered (R173) -/

/-- A part that is ready takes a request of the kind and answers it. -/
theorem exec_request {s : State} {c : Instr} {kind : Byte} {handler : Handler} {r : Request} (ready : s.ready)
    (row : exec c s = live s (goodFrame kind handler r)) :
    exec c s = .next (fillBuffer kind r (handler r.payload s.hears)) := by
  rw [row, live_next _ ready.1, goodFrame_taken kind handler r ready.2]

/-- What the owning block answers is the reply that goes out. -/
theorem exec_replied {s t : State} {c : Instr} {kind : Byte} {handler : Handler} {r : Request} {st : Status}
    {payload : List Byte} (ready : s.ready) (row : exec c s = live s (goodFrame kind handler r))
    (h : handler r.payload s.hears = answer st payload t) : exec c s = .next (replied kind r st payload t) := by
  rw [exec_request ready row, h]
  rfl

theorem index?_of_lt {n k : Nat} (h : k < n) : index? n (k : Int) = some ⟨k, h⟩ :=
  dif_pos ⟨Int.natCast_nonneg k, h⟩

theorem index?_of_le {n k : Nat} (h : n ≤ k) : index? n (k : Int) = none :=
  dif_neg fun k => absurd k.2 (by simpa using h)

/-- The first check of a handler: a payload of any other length is refused with BAD_LENGTH (log 10). -/
def ChecksLength (n : Nat) (handler : Handler) : Prop := ∀ p s, p.length ≠ n → handler p s = refuse .badLength s

theorem exec_badLength {s : State} {c : Instr} {kind : Byte} {handler : Handler} {r : Request} {n : Nat} (ready : s.ready)
    (row : exec c s = live s (goodFrame kind handler r)) (check : ChecksLength n handler) (h : r.payload.length ≠ n) :
    exec c s = .next (replied kind r .badLength [] s.hears) :=
  exec_replied ready row (check r.payload s.hears h)

/-! ## The conversion of one channel (R25 to R30) -/

section measure

variable {c : Channel}

/-- A sum below the lower limit gives the limit (R27). -/
theorem Channel.fresh_below {w : Word} (h : c.sum w < c.cfg.lo) :
    c.fresh w = { c with value := c.cfg.lo, quality := .clamped, age := 0 } := by
  have : ¬c.cfg.lo ≤ c.sum w := by omega
  simp [Channel.fresh, clamp, within, h, this]

/-- A sum above the upper limit gives the limit (R27). -/
theorem Channel.fresh_above {w : Word} (hl : c.cfg.lo ≤ c.sum w) (hh : c.cfg.hi < c.sum w) :
    c.fresh w = { c with value := c.cfg.hi, quality := .clamped, age := 0 } := by
  have h₁ : ¬c.sum w < c.cfg.lo := by omega
  have h₂ : ¬c.sum w ≤ c.cfg.hi := by omega
  simp [Channel.fresh, clamp, within, hh, h₁, h₂]

theorem Channel.fresh_between {w : Word} (hl : c.cfg.lo ≤ c.sum w) (hh : c.sum w ≤ c.cfg.hi) :
    c.fresh w = { c with value := c.sum w, quality := .good, age := 0 } := by
  simp [Channel.fresh, clamp_of_within hl hh, within, hl, hh]

theorem Channel.measure_forced {v : Int} (slot : Option Word) (h : c.force = some v) :
    c.measure slot = { c with value := v, quality := .forced, age := 0 } := by
  simp only [Channel.measure, h]

theorem Channel.measure_word {w : Word} (h : c.force = none) (hw : w ≠ holdCode) : c.measure (some w) = c.fresh w := by
  simp only [Channel.measure, h, if_neg hw]

theorem Channel.measure_noReading {slot : Option Word} (h : c.force = none) (hs : slot = none ∨ slot = some holdCode) :
    c.measure slot = c.noReading := by
  rcases hs with rfl | rfl <;> simp only [Channel.measure, h, if_true]

/-- A measurement moves the value, the quality and the age alone. -/
theorem Channel.measure_eq (c : Channel) (slot : Option Word) : c.measure slot =
    { c with value := (c.measure slot).value, quality := (c.measure slot).quality, age := (c.measure slot).age } := by
  unfold Channel.measure
  split
  · rfl
  · split
    · rfl
    · split <;> rfl

@[simp] theorem Channel.measure_cfg (slot : Option Word) : (c.measure slot).cfg = c.cfg := by rw [measure_eq]
@[simp] theorem Channel.measure_force (slot : Option Word) : (c.measure slot).force = c.force := by rw [measure_eq]
@[simp] theorem Channel.measure_lastRaw (slot : Option Word) : (c.measure slot).lastRaw = c.lastRaw := by rw [measure_eq]
@[simp] theorem Channel.measure_trim (slot : Option Word) : (c.measure slot).trim = c.trim := by rw [measure_eq]
@[simp] theorem Channel.measure_pendingTrim (slot : Option Word) : (c.measure slot).pendingTrim = c.pendingTrim := by
  rw [measure_eq]

end measure

/-- A channel becomes STALE, or is STALE at the first snapshot after a reset (R29, R30). -/
theorem reportsStale_iff (first : Bool) (was isNow : Channel) : reportsStale first was isNow = true ↔
    isNow.quality = .stale ∧ (was.quality ≠ .stale ∨ first = true) := by
  simp [reportsStale]

/-- A channel reported STALE takes a value again (R29). -/
theorem reportsFresh_iff (was isNow : Channel) : reportsFresh was isNow = true ↔
    was.staleMark = true ∧ (isNow.quality = .good ∨ isNow.quality = .clamped ∨ isNow.quality = .forced) := by
  simp [reportsFresh]

/-- The report mark after a conversion: set by a STALE report, kept until a FRESH report (R29). -/
theorem Channel.convert_staleMark_iff (first : Bool) (slot : Option Word) (i : ChannelNo) (c : Channel) :
    (c.convert first slot i).1.staleMark = true ↔ reportsStale first c (c.convert first slot i).1 = true ∨
      (c.staleMark = true ∧ ¬reportsFresh c (c.convert first slot i).1 = true) := by
  have hmark : (c.convert first slot i).1.staleMark = (reportsStale first c (c.convert first slot i).1 ||
      (c.staleMark && !reportsFresh c (c.convert first slot i).1)) := rfl
  rw [hmark, Bool.or_eq_true, Bool.and_eq_true, Bool.not_eq_true', Bool.not_eq_true]

/-- Settles O24: the three cases of a measurement, the reports it makes, and the conversion in a state. -/
theorem channelConverted : Obligations.ChannelConverted := by
  refine ⟨fun first slot i c => ?_, fun first slot i c => ?_, fun scan s i => ⟨convertChannel_unused, convertChannel_used⟩⟩
  · intro d trim age
    refine ⟨Channel.measure_cfg slot, Channel.measure_force slot, Channel.measure_lastRaw slot, Channel.measure_trim slot,
      Channel.measure_pendingTrim slot, fun v hf => ?_, fun w hf hs hw => ?_, fun hf hs => ?_⟩
    · have hm : (c.takeUp slot).measure slot = _ := Channel.measure_forced slot hf
      exact ⟨congrArg Channel.value hm, congrArg Channel.quality hm, congrArg Channel.age hm⟩
    · intro sum
      have hm : (c.takeUp slot).measure slot = (c.takeUp slot).fresh w := by
        rw [hs]; exact Channel.measure_word hf hw
      refine ⟨congrArg Channel.age hm, fun h => ?_, fun hl hh => ?_, fun hl hh => ?_⟩
      · have hv := hm.trans (Channel.fresh_below h)
        exact ⟨congrArg Channel.value hv, congrArg Channel.quality hv⟩
      · have hv := hm.trans (Channel.fresh_above hl hh)
        exact ⟨congrArg Channel.value hv, congrArg Channel.quality hv⟩
      · have hv := hm.trans (Channel.fresh_between hl hh)
        exact ⟨congrArg Channel.value hv, congrArg Channel.quality hv⟩
    · have hm : (c.takeUp slot).measure slot = _ := Channel.measure_noReading hf hs
      exact ⟨(congrArg Channel.value hm :), (congrArg Channel.age hm :), (congrArg Channel.quality hm :)⟩
  · intro d stale fresh code
    have hstale : reportsStale first c d = true ↔ stale := reportsStale_iff first c d
    have hfresh : reportsFresh c d = true ↔ fresh := reportsFresh_iff c d
    have hforce : d.force = c.force := Channel.measure_force slot
    have hcode : code = d.quality.code := by simp only [code]; cases d.quality <;> rfl
    have hreports : (c.convert first slot i).2 = forceReport i c d
        ++ (if reportsStale first c d then [⟨.chanStale, i.val, c.cfg.staleLimit⟩] else [])
        ++ (if reportsFresh c d then [⟨.chanFresh, i.val, d.quality.code⟩] else []) := rfl
    refine ⟨?_, ?_⟩
    · rw [← hstale, ← hfresh]
      exact c.convert_staleMark_iff first slot i
    · rw [hreports, forceReport, hforce, hcode]
      exact congrArg₂ (· ++ ·) (congrArg₂ (· ++ ·) rfl (if_congr hstale rfl rfl)) (if_congr hfresh rfl rfl)

/-! ## Requests on channels (R32 to R34) -/

theorem force_checksLength : ChecksLength 5 force := fun p s h => by
  unfold force
  split <;> [exact absurd rfl h; rfl]

theorem trim_checksLength : ChecksLength 5 trim := fun p s h => by
  unfold trim
  split <;> [exact absurd rfl h; rfl]

theorem unforce_checksLength : ChecksLength 1 unforce := fun p s h => by
  unfold unforce
  split <;> [exact absurd rfl h; rfl]

section channel

variable {i : Byte} (a b c d : Byte) (s : State)

theorem force_badIndex (h : 96 ≤ i.toNat) : force [i, a, b, c, d] s = refuse .badIndex s := by
  simp only [force, index?_of_le h]

theorem trim_badIndex (h : 96 ≤ i.toNat) : trim [i, a, b, c, d] s = refuse .badIndex s := by
  simp only [trim, index?_of_le h]

theorem unforce_badIndex (h : 96 ≤ i.toNat) : unforce [i] s = refuse .badIndex s := by
  simp only [unforce, index?_of_le h]

/-- FORCE on a channel of the table: mode, use and range in this order, then the force value (R32). -/
theorem force_channel (h : i.toNat < 96) : force [i, a, b, c, d] s =
    let ch := s.acq.chans[i.toNat]
    let v := (a ++ b ++ c ++ d : BitVec 32).toInt
    if s.mbc.mode = .config then refuse .wrongMode s
    else if !ch.cfg.inUse then refuse .wrongState s
    else if !within ch.cfg.kind.low ch.cfg.kind.high v then refuse .badValue s
    else answer .ok [] (s.setChannel ⟨i.toNat, h⟩ { ch with force := some v }) := by
  simp only [force, index?_of_lt h]
  rfl

/-- TRIM on a channel of the table: the trim clamped to 16 bits is pending and comes back (R34). -/
theorem trim_channel (h : i.toNat < 96) : trim [i, a, b, c, d] s =
    let v := clamp (-32768) 32767 (a ++ b ++ c ++ d : BitVec 32).toInt
    answer .ok (put16 v) (s.setChannel ⟨i.toNat, h⟩ { s.acq.chans[i.toNat] with pendingTrim := some v }) := by
  simp only [trim, index?_of_lt h]
  rfl

/-- UNFORCE on a channel of the table: mode and force flag in this order, then the flag is cleared (R33). -/
theorem unforce_channel (h : i.toNat < 96) : unforce [i] s =
    let ch := s.acq.chans[i.toNat]
    if s.mbc.mode = .config then refuse .wrongMode s
    else if ch.force.isNone then answer .already [] s
    else answer .ok [] (s.setChannel ⟨i.toNat, h⟩ { ch with force := none }) := by
  simp only [unforce, index?_of_lt h]
  rfl

end channel

theorem Kind.low_eq (k : Kind) : k.low = if k = .temp then -2731 else 0 := by
  cases k <;> rfl

theorem not_within_iff {lo hi x : Int} : (!within lo hi x) = true ↔ x < lo ∨ hi < x := by
  simp only [within, Bool.not_eq_true', decide_eq_false_iff_not]
  omega

/-- Settles O26: each request by its checks in order. -/
theorem channelRequests : Obligations.ChannelRequests := by
  intro r s ready
  refine ⟨exec_badLength ready rfl force_checksLength, exec_badLength ready rfl unforce_checksLength,
    exec_badLength ready rfl trim_checksLength, fun i a b c d hp h => ?_, fun i hp h => ?_,
    fun i a b c d hp h => ?_, fun i hp h => ?_⟩
  · exact ⟨exec_replied ready rfl (hp ▸ force_badIndex a b c d _ h), exec_replied ready rfl (hp ▸ trim_badIndex a b c d _ h)⟩
  · exact exec_replied ready rfl (hp ▸ unforce_badIndex _ h)
  · intro n ch v stored lo hi
    have hlo : ch.cfg.kind.low = lo := Kind.low_eq _
    have hhi : ch.cfg.kind.high = hi := by simp only [hi]; cases ch.cfg.kind <;> rfl
    constructor
    · have hrange : (!within ch.cfg.kind.low ch.cfg.kind.high v) = true ↔ v < lo ∨ hi < v := by
        rw [hlo, hhi, not_within_iff]
      rw [exec_request (c := .force r) ready rfl, hp, force_channel a b c d _ h, apply_ite (fillBuffer _ r),
        apply_ite (fillBuffer _ r), apply_ite (fillBuffer _ r)]
      exact congrArg _ (if_congr Iff.rfl rfl (if_congr (Iff.of_eq (Bool.not_eq_true' _)) rfl (if_congr hrange rfl rfl)))
    · exact exec_replied ready rfl (hp ▸ trim_channel a b c d _ h)
  · intro n ch
    rw [exec_request (c := .unforce r) ready rfl, hp, unforce_channel _ h, apply_ite (fillBuffer _ r), apply_ite (fillBuffer _ r)]
    exact congrArg _ (if_congr Iff.rfl rfl (if_congr Option.isNone_iff_eq_none rfl rfl))

/-! ## The bytes that a read returns (introduction, section 6.5) -/

@[simp] theorem put8_length (x : Int) : (put8 x).length = 1 := rfl
@[simp] theorem put16_length (x : Int) : (put16 x).length = 2 := rfl
@[simp] theorem put32_length (x : Int) : (put32 x).length = 4 := rfl
@[simp] theorem putTime_length (t : Time) : (putTime t).length = 6 := rfl

/-- Three flags as a number: bit 0 first. -/
theorem flagByte_three (a b c : Bool) : flagByte [a, b, c] = bit a + 2 * bit b + 4 * bit c := by
  simp only [flagByte]
  ring

theorem mul_bit (k : Int) (b : Bool) : k * bit b = if b then k else 0 := by
  cases b <;> simp [bit]

theorem mul_bit_isSome {α : Type} (k : Int) (x : Option α) [Decidable (x = none)] :
    k * bit x.isSome = if x = none then 0 else k := by
  cases x <;> simp [bit]

@[simp] theorem putOptIndex_length {n : Nat} (x : Option (Fin n)) : (putOptIndex x).length = 1 := by
  cases x <;> rfl

/-- A word is written high byte first. -/
theorem put16_toNat (w : Word) : put16 w.toNat = [w.extractLsb' 8 8, w.extractLsb' 0 8] := by
  have hw : BitVec.ofInt 16 w.toNat = w := by simp
  simp only [put16, hw]

/-- Read as signed or as unsigned, a word is written in the same two bytes. -/
theorem put16_toInt (w : Word) : put16 w.toInt = put16 w.toNat := by
  rw [put16_toNat]
  simp only [put16, BitVec.ofInt_toInt]

/-- Two bytes taken as a word are written as they came. -/
theorem put16_append (a b : Byte) : put16 (a ++ b : BitVec 16).toNat = [a, b] := by
  have ha : (a ++ b : BitVec 16).extractLsb' 8 8 = a := BitVec.extractLsb'_append_eq_left
  have hb : (a ++ b : BitVec 16).extractLsb' 0 8 = b := BitVec.extractLsb'_append_eq_right
  rw [put16_toNat, ha, hb]

theorem queueBytes_length (q : List WellNo) : (queueBytes q).length = 16 := by
  simp [queueBytes, List.length_flatMap]

theorem wellsHeader_length (s : State) (f n : Byte) : (wellsHeader s f n).length = 36 := by
  unfold wellsHeader
  simp [queueBytes_length]

theorem scaleHeader_length (m : Scm) (f n : Byte) : (scaleHeader m f n).length = 16 := by
  unfold scaleHeader
  simp

theorem Well.entry_length (now : Time) (w : Well) : (w.entry now).length = 14 := by simp [Well.entry]

theorem Output.entry_length (mode : Mode) (failSafe : Bool) (o : Output) : (o.entry mode failSafe).length = 8 := by
  simp [Output.entry]

theorem Point.entry_length (p : Point) : p.entry.length = 24 := by simp [Point.entry]

theorem turbineBytes_length (s : State) : (turbineBytes s).length = 37 := by
  unfold turbineBytes
  extract_lets g
  simp only [List.length_append, put8_length, put16_length, put32_length, putTime_length]

theorem heatBytes_length (h : Hxu) : (heatBytes h).length = 41 := by
  unfold heatBytes
  simp only [List.length_append, put8_length, put16_length, put32_length]

theorem Bank.bytes_length (k : Bank) : k.bytes.length = 54 := by
  simp [Bank.bytes, List.length_flatMap]

/-- The words of a record, high byte first: from an offset on, and on at word 0 after word 4095 (R168). -/
theorem wordBytes_readRecord (m : Memory) : ∀ (n off : Nat), off < 4096 → wordBytes (m.readRecord off n) =
    (List.range n).flatMap fun k => put16 (m.read ((off + k) % 4096)).toNat
  | 0, _, _ => rfl
  | n + 1, off, h => by
    have ih := wordBytes_readRecord m n ((off + 1) % 4096) (Nat.mod_lt _ (by decide))
    have hstep : ∀ k, ((off + 1) % 4096 + k) % 4096 = (off + (k + 1)) % 4096 := fun k => by omega
    have hcons : wordBytes (m.readRecord off (n + 1)) =
        put16 (m.read off).toNat ++ wordBytes (m.readRecord ((off + 1) % 4096) n) := by
      rw [put16_toNat]; rfl
    rw [hcons, ih, List.range_succ_eq_map, List.flatMap_cons, List.flatMap_map, Nat.add_zero off, Nat.mod_eq_of_lt h]
    simp only [hstep, Nat.succ_eq_add_one]

/-! ## The reads of a range (R51, R97, R152) -/

/-- A read of a range of entries: the length, then the range, then the bytes (log 10). -/
def rangeRead (size most : Nat) (bytes : Byte → Byte → State → List Byte) : Handler := fun p s =>
  match p with
  | [first, count] =>
    match rangeCheck size most first.toNat count.toNat with
    | some st => refuse st s
    | none => answer .ok (bytes first count s) s
  | _ => refuse .badLength s

theorem readWells_eq : readWells = rangeRead 16 8 fun f n s =>
    wellsHeader s f n ++ ((s.wsv.wells.toList.drop f.toNat).take n.toNat).flatMap (Well.entry s.now) := rfl

theorem readOutputs_eq : readOutputs = rangeRead 64 16 fun f n s =>
    [f, n] ++ put8 (flagByte [s.lif.blind, s.out.failSafe])
      ++ ((s.out.outs.toList.drop f.toNat).take n.toNat).flatMap (Output.entry s.mbc.mode s.out.failSafe) := rfl

theorem readScale_eq : readScale = rangeRead 8 8 fun f n s =>
    scaleHeader s.scm f n ++ ((s.scm.points.toList.drop f.toNat).take n.toNat).flatMap Point.entry := rfl

section range

variable {size most first count : Nat}

theorem rangeCheck_badIndex (h : size ≤ first ∨ size < first + count) : rangeCheck size most first count = some .badIndex :=
  if_pos h

theorem rangeCheck_badValue (hf : first < size) (hc : first + count ≤ size) (h : count = 0 ∨ most < count) :
    rangeCheck size most first count = some .badValue := by
  rw [rangeCheck, if_neg (by omega), if_pos h]

theorem rangeCheck_ok (hf : first < size) (hc : first + count ≤ size) (h1 : 1 ≤ count) (hm : count ≤ most) :
    rangeCheck size most first count = none := by
  rw [rangeCheck, if_neg (by omega), if_neg (by omega)]

end range

theorem rangeRead_checksLength (size most : Nat) (bytes : Byte → Byte → State → List Byte) :
    ChecksLength 2 (rangeRead size most bytes) := fun p s h => by
  unfold rangeRead
  split <;> [exact absurd rfl h; rfl]

/-- A request that reads a range of entries is answered by its checks in order and changes nothing else (log 10). -/
def RangeAnswered (s : State) (r : Request) (kind : Byte) (c : Instr) (size most : Nat) (bytes : Byte → Byte → List Byte) :
    Prop :=
  (r.payload.length ≠ 2 → exec c s = .next (replied kind r .badLength [] s.hears)) ∧
  (∀ f n : Byte, r.payload = [f, n] →
    (size ≤ f.toNat ∨ size < f.toNat + n.toNat → exec c s = .next (replied kind r .badIndex [] s.hears)) ∧
    (f.toNat < size → f.toNat + n.toNat ≤ size → n = 0 ∨ most < n.toNat →
      exec c s = .next (replied kind r .badValue [] s.hears)) ∧
    (f.toNat < size → f.toNat + n.toNat ≤ size → 1 ≤ n.toNat → n.toNat ≤ most →
      exec c s = .next (replied kind r .ok (bytes f n) s.hears)))

theorem rangeRead_answered {s : State} {r : Request} {kind : Byte} {c : Instr} {handler : Handler} {size most : Nat}
    {bytes : Byte → Byte → State → List Byte} (ready : s.ready) (row : exec c s = live s (goodFrame kind handler r))
    (hread : handler = rangeRead size most bytes) : RangeAnswered s r kind c size most fun f n => bytes f n s.hears := by
  subst hread
  refine ⟨exec_badLength ready row (rangeRead_checksLength size most bytes), fun f n hp => ⟨fun h => exec_replied ready row ?_,
    fun hf hn h => exec_replied ready row ?_, fun hf hn h1 hm => exec_replied ready row ?_⟩⟩
  · simp only [rangeRead, hp, rangeCheck_badIndex h]
    rfl
  · simp only [rangeRead, hp, rangeCheck_badValue hf hn (h.imp_left BitVec.toNat_eq.mp)]
    rfl
  · simp only [rangeRead, hp, rangeCheck_ok hf hn h1 hm]

theorem wellsHeader_hears (s : State) (f n : Byte) : wellsHeader s.hears f n = wellsHeader s f n := rfl

section rangeReads

variable {r : Request} {s : State} (ready : s.ready)
include ready

theorem readWells_answered : RangeAnswered s r 0x0C (.readWells r) 16 8 fun f n =>
    wellsHeader s f n ++ ((s.wsv.wells.toList.drop f.toNat).take n.toNat).flatMap (Well.entry s.now) := by
  have h := rangeRead_answered (c := .readWells r) ready rfl readWells_eq
  simpa only [wellsHeader_hears, hears_wsv, hears_now] using h

theorem readOutputs_answered : RangeAnswered s r 0x10 (.readOutputs r) 64 16 fun f n =>
    [f, n] ++ put8 (flagByte [s.lif.blind, s.out.failSafe])
      ++ ((s.out.outs.toList.drop f.toNat).take n.toNat).flatMap (Output.entry s.mbc.mode s.out.failSafe) := by
  have h := rangeRead_answered (c := .readOutputs r) ready rfl readOutputs_eq
  exact h

theorem readScale_answered : RangeAnswered s r 0x17 (.readScale r) 8 8 fun f n =>
    scaleHeader s.scm f n ++ ((s.scm.points.toList.drop f.toNat).take n.toNat).flatMap Point.entry := by
  have h := rangeRead_answered (c := .readScale r) ready rfl readScale_eq
  exact h

end rangeReads

/-! ## The other reads -/

theorem readTurbine_checksLength : ChecksLength 0 readTurbine := fun p s h => by
  unfold readTurbine
  split <;> [exact absurd rfl h; rfl]

theorem readHeat_checksLength : ChecksLength 0 readHeat := fun p s h => by
  unfold readHeat
  split <;> [exact absurd rfl h; rfl]

theorem readChannels_checksLength : ChecksLength 3 readChannels := fun p s h => by
  unfold readChannels
  split <;> [exact absurd rfl h; rfl]

theorem readCapture_checksLength : ChecksLength 3 readCapture := fun p s h => by
  unfold readCapture
  split <;> [exact absurd rfl h; rfl]

theorem readBank_checksLength : ChecksLength 1 readBank := fun p s h => by
  unfold readBank
  split <;> [exact absurd rfl h; rfl]

theorem tableRead_checksLength : ChecksLength 2 tableRead := fun p s h => by
  unfold tableRead
  split <;> [exact absurd rfl h; rfl]

/-- READ_CHANNELS with its three bytes: the range, then the count and the view (R35). -/
theorem readChannels_three (f n v : Byte) (s : State) : readChannels [f, n, v] s =
    if 96 ≤ f.toNat ∨ 96 < f.toNat + n.toNat then refuse .badIndex s
    else if n = 0 ∨ 32 < n.toNat ∨ 1 < v.toNat then refuse .badValue s
    else answer .ok (put16 s.acq.number.toNat ++ [f, n]
      ++ ((s.acq.chans.toList.drop f.toNat).take n.toNat).flatMap (Channel.entry v)) s := by
  have hcount : (n = 0 ∨ 32 < n.toNat ∨ 1 < v.toNat) ↔ (n.toNat = 0 ∨ 32 < n.toNat) ∨ 1 < v.toNat := by
    rw [show n = 0 ↔ n.toNat = 0 from BitVec.toNat_eq, or_assoc]
  simp only [readChannels, rangeCheck, hcount]
  by_cases hi : 96 ≤ f.toNat ∨ 96 < f.toNat + n.toNat
  · simp only [if_pos hi]
  by_cases hc : n.toNat = 0 ∨ 32 < n.toNat
  · simp only [if_neg hi, if_pos hc, if_pos (Or.inl hc)]
  simp only [if_neg hi, if_neg hc, or_iff_right hc, put16_toInt]

/-- READ_CAPTURE with its three bytes: the offset, then the count (R168). -/
theorem readCapture_three (a b n : Byte) (s : State) : readCapture [a, b, n] s =
    let off := (a ++ b : BitVec 16).toNat
    if 4095 < off then refuse .badIndex s
    else if n = 0 ∨ 100 < n.toNat then refuse .badValue s
    else answer .ok (put8 s.cap.state.code ++ put16 s.cap.pos ++ [a, b, n]
      ++ (List.range n.toNat).flatMap fun k => put16 (s.cap.ring.read ((off + k) % 4096)).toNat) s := by
  extract_lets off
  have hoff : (u16 [a, b, n] 0).toNat = off := rfl
  simp only [readCapture, hoff]
  split
  · rfl
  · next h =>
    split
    · rfl
    · rw [wordBytes_readRecord _ _ _ (by omega), put16_append]
      simp

/-- READ_TURBINE without a payload (R117). -/
theorem readTurbine_empty (s : State) : readTurbine [] s = answer .ok (turbineBytes s) s := rfl

/-- READ_HEAT without a payload (R133). -/
theorem readHeat_empty (s : State) : readHeat [] s = answer .ok (heatBytes s.hxu) s := rfl

/-- The bytes of READ_BANK after the publication count: mode, flags and contents (R65). -/
def bankTail (m : Mbc) (bank : Bank) : List Byte :=
  put8 m.mode.code ++ put8 (flagByte [decide (m.link = .silent), m.pubBank.isSome, m.hostTimer.isSome]) ++ bank.bytes

/-- The flags of READ_BANK as numbers (R65). -/
theorem bankFlags_eq (m : Mbc) : flagByte [decide (m.link = .silent), m.pubBank.isSome, m.hostTimer.isSome] =
    (if m.link = .silent then 1 else 0) + (if m.pubBank = none then 0 else 2) + (if m.hostTimer = none then 0 else 4) := by
  rw [flagByte_three, mul_bit_isSome, mul_bit_isSome]
  by_cases h : m.link = .silent <;> simp [h, bit]

/-- READ_BANK of a bank (R65). -/
theorem readBank_named {k : Byte} {s : State} {origin : Int} {count : BitVec 16} {bank : Bank}
    (h : s.mbc.named k.toNat = some (origin, count, bank)) :
    readBank [k] s = answer .ok ([k] ++ put8 origin ++ put16 count.toNat ++ bankTail s.mbc bank) s := by
  simp only [readBank, h, put16_toInt, bankTail, List.append_assoc]

theorem readBank_badIndex {k : Byte} (s : State) (h : 4 ≤ k.toNat) : readBank [k] s = refuse .badIndex s := by
  have hnone : s.mbc.named k.toNat = none := by
    rw [Mbc.named, if_neg (by omega), if_neg (by omega), if_neg (by omega), if_neg (by omega)]
  simp only [readBank, hnone]

/-- READ_BANK of a bank as the frame finds it. -/
theorem exec_readBank_named {r : Request} {s : State} {k : Byte} {origin : Int} {count : BitVec 16} {bank : Bank}
    (ready : s.ready) (hp : r.payload = [k]) (h : s.hears.mbc.named k.toNat = some (origin, count, bank)) :
    exec (.readBank r) s = .next (replied 0x09 r .ok ([k] ++ put8 origin ++ put16 count.toNat ++ bankTail s.hears.mbc bank)
      s.hears) :=
  exec_replied ready rfl (hp ▸ readBank_named h)

section named

variable {m : Mbc} {k : Nat}

theorem Mbc.named_staging (h : k = 0) : m.named k = some (4, 0, m.staging) := by
  subst h; rfl

theorem Mbc.named_empty (h : k = 1) (hq : m.pubBank = none) : m.named k = some (3, 0, .zero) := by
  subst h; simp [Mbc.named, hq]

theorem Mbc.named_pending {q : PendingBank} (h : k = 1) (hq : m.pubBank = some q) : m.named k = some (1, q.count, q.bank) := by
  subst h; simp [Mbc.named, hq]

theorem Mbc.named_active {o : Origin} (h : k = 2) (ho : m.origin = o) : m.named k = some (o.code, o.count, m.active) := by
  subst h ho; rfl

theorem Mbc.named_failsafe (h : k = 3) : m.named k = some (4, 0, m.failsafe) := by
  subst h; rfl

end named

theorem tableRead_badIndex {t i : Byte} (s : State) (h : TableRef.find t.toNat i.toNat = none) :
    tableRead [t, i] s = refuse .badIndex s := by
  simp only [tableRead, h]

theorem tableRead_found {t i : Byte} {ref : TableRef} (s : State) (h : TableRef.find t.toNat i.toNat = some ref) :
    tableRead [t, i] s = answer .ok ([t, i] ++ ref.load s) s := by
  simp only [tableRead, h]

/-- A frame heard changes no record (R67). -/
theorem TableRef.load_hears (ref : TableRef) (s : State) : ref.load s.hears = ref.load s := by
  cases ref <;> rfl

/-- One entry of READ_CHANNELS, with the flags of view 0 as numbers (Table 2-4). -/
theorem Channel.entry_eq (v : Byte) (c : Channel) : Channel.entry v c =
    if v = 0 then
      put32 c.value ++ put8 (c.quality.code + (if c.force = none then 0 else 8) + (if c.pendingTrim = none then 0 else 16)
        + (if c.cfg.inUse then 32 else 0)) ++ put8 c.age
    else put16 c.lastRaw.toNat ++ put16 c.trim := by
  have hflags : 8 * flagByte [c.force.isSome, c.pendingTrim.isSome, c.cfg.inUse] =
      (if c.force = none then 0 else 8) + (if c.pendingTrim = none then 0 else 16) + (if c.cfg.inUse then 32 else 0) := by
    rw [flagByte_three, ← mul_bit_isSome 8, ← mul_bit_isSome 16, ← mul_bit 32]
    ring
  rw [Channel.entry, hflags, put16_toInt, ← Int.add_assoc, ← Int.add_assoc]

theorem decide_ne_none {α : Type} (x : Option α) [Decidable (x ≠ none)] : decide (x ≠ none) = x.isSome := by
  cases x <;> simp

/-- The last snapshot a job has processed, 0 before any. -/
theorem put16_lastSnap (x : Option (BitVec 16)) : put16 (x.getD 0).toInt = put16 (match x with
    | none => 0
    | some n => n.toNat) := by
  rw [put16_toInt]
  cases x <;> rfl

/-- The three bytes of the trip cap (Table 6-5). -/
theorem capBytes_eq (cap : Option Cap) :
    put8 (flagByte [cap.isSome, (cap.map Cap.stale).getD false]) ++ put16 ((cap.map Cap.value).getD 0) =
      match cap with
      | none => [0x00#8, 0x00#8, 0x00#8]
      | some x => put8 (if x.stale then 3 else 1) ++ put16 x.value := by
  cases cap with
  | none => rfl
  | some x => cases h : x.stale <;> simp [h, flagByte, bit]

/-- The code of the first cause, 0 for none (Tables 6-3 and 6-5). -/
theorem firstCode_eq (x : Option Cause) : firstCode x = match x with
    | none => 0
    | some .overspeed => 1
    | some .lubeLow => 2
    | some .purityHigh => 3
    | some .field => 4
    | some .blind => 5
    | some .hostTrip => 6
    | some .restarted => 7 := by
  cases x with
  | none => rfl
  | some c => cases c <;> rfl

theorem StepState.leftMs_eq (now : Time) (x : StepState) : x.leftMs now = match x with
    | .timing t => Timer.leftMs now (some t)
    | _ => 0 := by
  cases x <;> rfl

/-- The line code that READ_OUTPUTS shows: the hold code for an output not in use or out of service, and outside SUPERVISE and
LEAVING (R51, Table 3-4). -/
theorem Output.shownCode_eq (mode : Mode) (failSafe : Bool) (o : Output) :
    (if o.cfg.inUse then o.lineCode mode failSafe else holdCode) =
      if o.cfg.inUse = false ∨ o.outOfService = true ∨ ¬(mode = .supervise ∨ mode = .leaving) then 0x8000#16
      else BitVec.ofInt 16 (if failSafe then o.cfg.failSafe else o.issued) := by
  cases o.cfg.inUse with
  | false => simp [holdCode]
  | true =>
    cases ho : o.outOfService with
    | true => simp [Output.lineCode, ho, holdCode]
    | false => cases mode <;> simp [Output.lineCode, ho, holdCode]

/-- Settles O52, read by read: the bytes written out are the model's, and each request goes by its checks in order. -/
theorem readsAnswered : Obligations.ReadsAnswered := by
  intro r s ready left index well wells output scale point turbine heat two
  -- the bytes that the statement writes out are those of the model
  have hleft : left = Timer.leftMs s.now := by funext x; cases x <;> rfl
  have hindex : ∀ {n : Nat} (x : Option (Fin n)), index x = putOptIndex x := fun x => by cases x <;> rfl
  have hwell : well = Well.entry s.now := by
    funext w
    simp only [well, hleft]
    rfl
  have hwells : ∀ f n : Byte, wells ++ [f, n] = wellsHeader s f n := fun f n => by
    simp only [wells, hleft, hindex, decide_ne_none]
    rfl
  have houtput : output = Output.entry s.mbc.mode s.out.failSafe := by
    funext o
    simp only [output, Output.entry, o.shownCode_eq, put16_toInt]
    refine congrArg₂ (· ++ ·) rfl (congrArg put8 ?_)
    cases o.cfg.source <;> simp [Source.code, Source.index]
  have hscale : ∀ f n : Byte, scale ++ [f, n] = scaleHeader s.scm f n := fun f n => by
    simp only [scale, scaleHeader, put16_lastSnap]
    rfl
  have hpoint : point = Point.entry := by
    funext p
    simp only [point, decide_ne_none, Point.entry, put16_toInt]
    cases p.labValue <;> rfl
  have hturbine : turbine = turbineBytes s := by
    unfold turbineBytes
    extract_lets g
    rw [List.append_assoc _ (put8 (flagByte [g.cap.isSome, _])) (put16 _), capBytes_eq]
    simp only [turbine, hleft, firstCode_eq, StepState.leftMs_eq, put16_toInt]
    rfl
  have hheat : heat = heatBytes s.hxu := by
    unfold heatBytes
    rw [put16_lastSnap]
    rfl
  clear_value heat turbine point scale output wells well
  clear_value index left
  -- each request by its checks
  refine ⟨?wells, ?outputs, ?scale, ?wellsLength, fun w => ?wellLength, fun o => ?outputLength, ?scaleLength,
    fun p => ?pointLength, fun hp => ?notEmpty, fun hp => ?payload,
    fun hl => ⟨exec_badLength ready rfl readChannels_checksLength hl, exec_badLength ready rfl readCapture_checksLength hl⟩,
    fun f n v hp => ?channels, fun a b n hp => ?capture,
    exec_badLength ready rfl readBank_checksLength, fun k hp => ?bank, Bank.bytes_length,
    exec_badLength ready rfl tableRead_checksLength, fun t i hp => ?table⟩
  case wells =>
    simp only [two, hwells, hwell]
    exact readWells_answered ready
  case outputs =>
    rw [houtput]
    exact readOutputs_answered ready
  case scale =>
    simp only [two, hscale, hpoint]
    exact readScale_answered ready
  case wellsLength =>
    have hlen := congrArg List.length (hwells 0 0)
    rw [wellsHeader_length, List.length_append] at hlen
    exact Nat.add_right_cancel hlen
  case wellLength => rw [hwell, Well.entry_length]
  case outputLength => rw [houtput, Output.entry_length]
  case scaleLength =>
    have hlen := congrArg List.length (hscale 0 0)
    rw [scaleHeader_length, List.length_append] at hlen
    exact Nat.add_right_cancel hlen
  case pointLength => rw [hpoint, Point.entry_length]
  case notEmpty =>
    have hl : r.payload.length ≠ 0 := mt List.eq_nil_of_length_eq_zero hp
    exact ⟨exec_badLength ready rfl readTurbine_checksLength hl, exec_badLength ready rfl readHeat_checksLength hl⟩
  case payload =>
    rw [hturbine, hheat]
    exact ⟨exec_replied ready rfl (hp ▸ readTurbine_empty _), exec_replied ready rfl (hp ▸ readHeat_empty _),
      turbineBytes_length _, heatBytes_length _⟩
  case channels =>
    rw [exec_request (c := .readChannels r) ready rfl, hp, readChannels_three, apply_ite (fillBuffer _ r),
      apply_ite (fillBuffer _ r), funext (Channel.entry_eq v)]
    rfl
  case capture =>
    intro off
    rw [exec_request (c := .readCapture r) ready rfl, hp, readCapture_three, apply_ite (fillBuffer _ r),
      apply_ite (fillBuffer _ r)]
    rfl
  case table =>
    cases hf : TableRef.find t.toNat i.toNat with
    | none => exact exec_replied ready rfl (hp ▸ tableRead_badIndex _ hf)
    | some ref =>
      have h := tableRead_found s.hears hf
      rw [ref.load_hears] at h
      exact exec_replied ready rfl (hp ▸ h)
  case bank =>
    intro tail
    have htail : tail = bankTail s.hears.mbc := by
      funext bank
      simp only [bankTail, Bank.bytes, bankFlags_eq, ← List.append_assoc]
      rfl
    clear_value tail
    subst htail
    rcases hk : k.toNat with _ | _ | _ | _ | n
    · exact (exec_readBank_named ready hp (Mbc.named_staging hk)).trans rfl
    · cases hq : s.mbc.pubBank with
      | none => exact (exec_readBank_named ready hp (Mbc.named_empty hk hq)).trans rfl
      | some q => exact (exec_readBank_named ready hp (Mbc.named_pending hk hq)).trans rfl
    · cases ho : s.mbc.origin with
      | default => exact (exec_readBank_named ready hp (Mbc.named_active hk ho)).trans rfl
      | published n => exact (exec_readBank_named ready hp (Mbc.named_active hk ho)).trans rfl
      | failsafe => exact (exec_readBank_named ready hp (Mbc.named_active hk ho)).trans rfl
    · exact (exec_readBank_named ready hp (Mbc.named_failsafe hk)).trans rfl
    · exact exec_replied ready rfl (hp ▸ readBank_badIndex _ (by omega))

end Sys2Proof.Machine

/-! PROOFS. OUT and the stop valve: what a demand update and OUTPUT_CMD do (R41 to R49), and the invariant that the stop valve
stands closed while the turbine guard is TRIPPED, carried through every command (R40, R43, R46, R52, R105, R118). -/

namespace Sys2Proof.Machine

/-! ## OUTPUT_CMD (R49) -/

theorem outputCmd_checksLength : ChecksLength 2 outputCmd := fun p s h => by
  unfold outputCmd
  split <;> [exact absurd rfl h; rfl]

section outputCmd

variable {i : Byte} (cmd : Byte) (s : State)

theorem outputCmd_badIndex (h : 64 ≤ i.toNat) : outputCmd [i, cmd] s = refuse .badIndex s := by
  simp only [outputCmd, index?_of_le h]

/-- Command byte 0 takes an output out of service, command byte 1 puts it back, and no other byte is a command (R49). -/
theorem outputCmd_output (h : i.toNat < 64) : outputCmd [i, cmd] s =
    if 1 < cmd.toNat then refuse .badValue s else outputService ⟨i.toNat, h⟩ (decide (cmd = 0x00#8)) s := by
  simp only [outputCmd, index?_of_lt h]
  split
  · subst cmd
    rfl
  · split
    · subst cmd
      rfl
    · exact (if_pos (by bv_omega)).symm

end outputCmd

/-- The answer of an output to the mark it is given: not in use, marked so already, or marked (R49). -/
theorem outputService_answer (n : OutputNo) (mark : Bool) (s : State) : outputService n mark s =
    if s.out.outs[n].cfg.inUse = false then answer .wrongState [] s
    else if s.out.outs[n].outOfService = mark then answer .already (put16 s.out.outs[n].issued) s
    else answer .ok (put16 s.out.outs[n].issued) { s with out := s.out.mark n mark } := by
  simp only [outputService, Bool.not_eq_true']
  rfl

/-- Settles O28: the length, the index and the command byte are checked in this order, and then the output answers.
(The model's own `outputService` has the plain name.) -/
theorem Out.outputService : Obligations.OutputService := by
  intro r s c ready hc
  have row : exec c s = live s (goodFrame 0x0F outputCmd r) := by rcases hc with rfl | rfl <;> rfl
  refine ⟨exec_badLength ready row outputCmd_checksLength, ?badIndex, ?output⟩ <;> intro i cmd hp hi
  case badIndex => exact exec_replied ready row (hp ▸ outputCmd_badIndex cmd _ hi)
  case output =>
    intro n o
    rw [exec_request ready row, hp, outputCmd_output cmd _ hi, outputService_answer]
    simp only [apply_ite (fillBuffer 0x0F r)]
    rfl

/-! ## Demand updates (R41 to R48) -/

/-- A discrete output follows its demand, another falls at once and rises by one ramp step (R42, R43). -/
theorem Output.follow_eq (o : Output) : o.follow =
    if o.cfg.source.discrete then { o with issued := o.demand }
    else if o.demand < o.issued then { o with issued := o.demand }
    else if o.demand = o.issued ∨ o.rise = true then o
    else { o with issued := min o.demand (o.issued + o.cfg.ramp), rise := true } := by
  unfold Output.follow
  by_cases he : o.demand = o.issued <;> simp [he]

theorem Out.deliver_config (src : Source) (v : Int) (u : Out) : u.deliver .config src v = u := if_pos rfl

section deliver

variable {m : Mode} (hm : m ≠ .config) (src : Source) (v : Int) (u : Out)

@[simp] theorem Out.deliver_failSafe : (u.deliver m src v).failSafe = u.failSafe := by
  unfold Out.deliver
  split <;> rfl

include hm

/-- Outside CONFIG a demand update goes to every output in use that names the source (R41). -/
theorem Out.deliver_eq : u.deliver m src v =
    { u with outs := u.outs.map fun o => if o.cfg.inUse ∧ o.cfg.source = src then o.update m u.failSafe v else o } := if_neg hm

theorem Out.deliver_out (i : OutputNo) : (u.deliver m src v).outs[i] =
    if u.outs[i].cfg.inUse ∧ u.outs[i].cfg.source = src then u.outs[i].update m u.failSafe v else u.outs[i] := by
  simp [Out.deliver_eq hm]

end deliver

/-- The end of BLIND has every output in use act on the demand it holds (R48). -/
theorem Out.leaveFailSafe_out {u : Out} (m : Mode) (h : u.failSafe = true) (i : OutputNo) :
    (u.leaveFailSafe m).outs[i] = if u.outs[i].cfg.inUse then u.outs[i].act m else u.outs[i] := by
  simp [Out.leaveFailSafe, h]

/-- Settles O27: the ranges and the moves written out are the model's, and an update reaches the outputs that name its source. -/
theorem demandDelivered : Obligations.DemandDelivered := by
  unfold Obligations.DemandDelivered
  intro discrete moved
  have hdiscrete : discrete = Source.discrete := funext fun src => by cases src <;> rfl
  have hfollow (o : Output) : moved .supervise o = o.follow := by
    rw [o.follow_eq, ← hdiscrete]
  have hmoved : moved = Output.act := by
    funext m o
    cases m with
    | config | standby => rfl
    | supervise | leaving => exact hfollow o
  clear_value moved
  clear hfollow
  clear_value discrete
  subst hdiscrete hmoved
  refine ⟨?update, fun m u => ⟨fun h => if_neg (by simp [h]), fun h => ?blind⟩⟩
  case update =>
    intro src v s t d
    refine ⟨rfl, Out.deliver_failSafe src v s.out, fun hm => ?inConfig, fun i hi => ?unnamed, fun hm i hu hi => ?named⟩
    case inConfig => simp only [t, deliver, hm, Out.deliver_config]
    case unnamed =>
      by_cases hm : s.mbc.mode = .config
      · simp only [t, deliver, hm, Out.deliver_config]
      · exact (Out.deliver_out hm src v s.out i).trans (if_neg hi)
    case named =>
      subst hi
      exact (Out.deliver_out hm _ v s.out i).trans (if_pos ⟨hu, rfl⟩)
  case blind => exact ⟨congrArg Out.failSafe (if_pos h), Out.leaveFailSafe_out m h⟩

/-! ## The closed stop valve, output by output (R40, R43, R46, R105) -/

/-- One output as `StopValveInv` has it, for a fail-safe state, a guard state and a mode. -/
structure Output.ValveSafe (failSafe : Bool) (g : Guard) (m : Mode) (o : Output) : Prop where
  record : o.isStopValve → o.cfg.failSafe = 0
  nonneg : o.isStopValve → 0 ≤ o.demand ∧ 0 ≤ o.issued
  blind : failSafe = true → o.isStopValve → o.issued = 0
  demand : g = .tripped → o.isStopValve → o.demand = 0
  issued : g = .tripped → o.isStopValve → o.issued = 0
  config : m = .config → o.demand = 0 ∧ o.issued = 0

/-- The output unit as `StopValveInv` has it, for a guard state and a mode. -/
structure Out.ValveSafe (g : Guard) (m : Mode) (u : Out) : Prop where
  guard : m = .config → g = .tripped
  output : ∀ o ∈ u.outs, o.ValveSafe u.failSafe g m

/-- `StopValveInv` as a property of the three fields of the state that it reads. -/
def State.ValveSafe (s : State) : Prop := s.out.ValveSafe s.tgd.guard s.mbc.mode

theorem stopValveInv_iff (s : State) : StopValveInv s ↔ s.ValveSafe := by
  constructor
  · rintro ⟨record, nonneg, blind, demand, issued, config⟩
    refine ⟨fun hm => (config hm).1, fun o ho => ?_⟩
    rw [← Vector.mem_toList_iff] at ho
    exact ⟨record o ho, nonneg o ho, (blind · o ho), (demand · o ho), (issued · o ho), fun hm => (config hm).2 o ho⟩
  · rintro ⟨guard, output⟩
    simp only [← Vector.mem_toList_iff] at output
    exact ⟨fun o ho => (output o ho).record, fun o ho => (output o ho).nonneg, fun h o ho => (output o ho).blind h,
      fun h o ho => (output o ho).demand h, fun h o ho => (output o ho).issued h,
      fun h => ⟨guard h, fun o ho => (output o ho).config h⟩⟩

section output

variable {failSafe : Bool} {g g' : Guard} {m m' : Mode} {o p : Output}

/-- The rise mark and the out-of-service mark do not matter. -/
theorem Output.ValveSafe.congr (h : o.ValveSafe failSafe g m) (hc : p.cfg = o.cfg) (hd : p.demand = o.demand)
    (hi : p.issued = o.issued) : p.ValveSafe failSafe g m := by
  obtain ⟨cfg, demand, issued, rise, outOfService⟩ := p
  subst hc hd hi
  exact ⟨h.record, h.nonneg, h.blind, h.demand, h.issued, h.config⟩

/-- Outside CONFIG nothing is asked of an output that does not carry the stop valve. -/
theorem Output.ValveSafe.of_other (h : ¬o.isStopValve) (hm : m ≠ .config) : o.ValveSafe failSafe g m :=
  ⟨(absurd · h), (absurd · h), fun _ => (absurd · h), fun _ => (absurd · h), fun _ => (absurd · h), (absurd · hm)⟩

/-- In CONFIG an output is at 0, whatever its record is, as long as a stop valve's fail-safe value is 0 (R40, R52). -/
theorem Output.ValveSafe.of_zero (hr : o.isStopValve → o.cfg.failSafe = 0) (hd : o.demand = 0) (hi : o.issued = 0) :
    o.ValveSafe failSafe g m :=
  ⟨hr, fun _ => ⟨hd.ge, hi.ge⟩, fun _ _ => hi, fun _ _ => hd, fun _ _ => hi, fun _ => ⟨hd, hi⟩⟩

theorem Output.ValveSafe.mode (h : o.ValveSafe failSafe g m) (hm : m' ≠ .config) : o.ValveSafe failSafe g m' :=
  ⟨h.record, h.nonneg, h.blind, h.demand, h.issued, (absurd · hm)⟩

/-- A stop valve that acts on its demand is issued at most the demand (R43, R45). -/
theorem Output.act_issued (hm : m ≠ .config) (hs : o.cfg.source = .stopValve) (hd : 0 ≤ o.demand) (hi : 0 ≤ o.issued) :
    0 ≤ (o.act m).issued ∧ (o.act m).issued ≤ o.demand := by
  have hfollow : o.follow = { o with issued := o.demand } := by simp [Output.follow, hs, Source.discrete]
  cases m with
  | config => exact absurd rfl hm
  | standby =>
    show 0 ≤ o.fallOnly.issued ∧ o.fallOnly.issued ≤ o.demand
    unfold Output.fallOnly
    split
    · exact ⟨hd, le_rfl⟩
    · exact ⟨hi, by omega⟩
  | supervise | leaving =>
    show 0 ≤ o.follow.issued ∧ o.follow.issued ≤ o.demand
    rw [hfollow]
    exact ⟨hd, le_rfl⟩

theorem Output.isStopValve_congr (h : p.cfg = o.cfg) : p.isStopValve ↔ o.isStopValve := by
  unfold Output.isStopValve
  rw [h]

/-- An output that acts on its demand outside the fail-safe state; its issued value before does not matter (R42, R48). -/
theorem Output.act_valveSafe (hm : m ≠ .config) (hr : o.isStopValve → o.cfg.failSafe = 0)
    (hn : o.isStopValve → 0 ≤ o.demand ∧ 0 ≤ o.issued) (hd : g = .tripped → o.isStopValve → o.demand = 0) :
    (o.act m).ValveSafe false g m := by
  obtain ⟨hcfg, -, hdemand⟩ := o.act_alike m
  by_cases hs : o.isStopValve
  · obtain ⟨h0, hle⟩ := Output.act_issued hm hs.2 (hn hs).1 (hn hs).2
    exact ⟨fun _ => hcfg ▸ hr hs, fun _ => ⟨hdemand ▸ (hn hs).1, h0⟩, nofun, fun hg _ => hdemand ▸ hd hg hs,
      fun hg _ => le_antisymm (hd hg hs ▸ hle) h0, (absurd · hm)⟩
  · exact .of_other (mt (Output.isStopValve_congr hcfg).mp hs) hm

/-- The end of BLIND: the output acts on the demand it holds (R48). -/
theorem Output.ValveSafe.leave (h : o.ValveSafe failSafe g m) :
    (if o.cfg.inUse then o.act m else o).ValveSafe false g m := by
  split
  · by_cases hm : m = .config
    · subst hm
      exact ⟨h.record, h.nonneg, nofun, h.demand, h.issued, h.config⟩
    · exact Output.act_valveSafe hm h.record h.nonneg h.demand
  · exact ⟨h.record, h.nonneg, nofun, h.demand, h.issued, h.config⟩

/-- BLIND: the output goes to its fail-safe value, which is 0 for a stop valve (R40, R46). -/
theorem Output.ValveSafe.enter (h : o.ValveSafe failSafe g m) (hm : m ≠ .config) :
    Output.ValveSafe true g m { o with issued := if o.cfg.inUse then o.cfg.failSafe else o.issued, rise := false } := by
  have hissued : o.isStopValve → (if o.cfg.inUse then o.cfg.failSafe else o.issued) = 0 := fun hs =>
    (if_pos hs.1).trans (h.record hs)
  exact ⟨h.record, fun hs => ⟨(h.nonneg hs).1, (hissued hs).ge⟩, fun _ => hissued, h.demand, fun _ => hissued,
    (absurd · hm)⟩

/-- A demand update of the guard, of 0 where the guard is TRIPPED after it (R41, R105). -/
theorem Output.ValveSafe.update (h : o.ValveSafe failSafe g m) (hm : m ≠ .config) {v : Int} (hv : g' = .tripped → v = 0)
    (hs : o.cfg.source = .stopValve) : (o.update m failSafe v).ValveSafe failSafe g' m := by
  have hd : 0 ≤ o.cfg.source.inRange v := (o.cfg.source.inRange_bounds v).1
  have hzero : g' = .tripped → o.cfg.source.inRange v = 0 := fun hg => by rw [hv hg, hs]; rfl
  unfold Output.update
  dsimp only
  split
  · next hb =>
    exact ⟨h.record, fun k => ⟨hd, (h.nonneg k).2⟩, h.blind, fun hg _ => hzero hg, fun _ => h.blind hb, (absurd · hm)⟩
  · next hb =>
    rw [Bool.not_eq_true] at hb
    subst hb
    exact Output.act_valveSafe hm h.record (fun k => ⟨hd, (h.nonneg k).2⟩) fun hg _ => hzero hg

end output

/-! ## The closed stop valve, in the output unit -/

section unit

variable {g g' : Guard} {m m' : Mode} {u : Out}

/-- The unit is changed output by output. -/
theorem Out.ValveSafe.map {f : Output → Output} {failSafe : Bool} (h : u.ValveSafe g m) (hg : m' = .config → g' = .tripped)
    (hf : ∀ o, o.ValveSafe u.failSafe g m → (f o).ValveSafe failSafe g' m') :
    Out.ValveSafe g' m' { outs := u.outs.map f, failSafe := failSafe } := by
  refine ⟨hg, fun p hp => ?_⟩
  obtain ⟨o, ho, rfl⟩ := Vector.mem_map.mp hp
  exact hf o (h.output o ho)

/-- One output is changed. -/
theorem Out.ValveSafe.set (h : u.ValveSafe g m) (i : OutputNo) {p : Output} (hp : p.ValveSafe u.failSafe g m) :
    Out.ValveSafe g m { u with outs := u.outs.set i p } := by
  refine ⟨h.guard, fun o ho => ?_⟩
  rcases Vector.mem_or_eq_of_mem_set (hi := i.isLt) ho with ho | rfl
  · exact h.output o ho
  · exact hp

theorem Out.ValveSafe.mode (h : u.ValveSafe g m) (hm : m' ≠ .config) : u.ValveSafe g m' :=
  ⟨(absurd · hm), fun o ho => (h.output o ho).mode hm⟩

/-- A demand update for any other source does not reach the stop valve. -/
theorem Out.ValveSafe.deliver {src : Source} (h : u.ValveSafe g m) (hsrc : src ≠ .stopValve) (v : Int) :
    (u.deliver m src v).ValveSafe g m := by
  by_cases hm : m = .config
  · rw [hm, Out.deliver_config, ← hm]
    exact h
  rw [Out.deliver_eq hm]
  refine h.map h.guard fun o ho => ?_
  split
  · next named =>
    obtain ⟨hcfg, -, -⟩ := o.update_alike m u.failSafe v
    exact .of_other (fun hs => hsrc (named.2.symm.trans ((Output.isStopValve_congr hcfg).mp hs).2)) hm
  · exact ho

/-- The guard closes the stop valve where it is TRIPPED after the update (R105). -/
theorem Out.ValveSafe.deliverStop {v : Int} (h : u.ValveSafe g m) (hg : m = .config → g' = .tripped)
    (hv : g' = .tripped → v = 0) : (u.deliver m .stopValve v).ValveSafe g' m := by
  by_cases hm : m = .config
  · rw [hg hm, hm, Out.deliver_config, ← hm, ← h.guard hm]
    exact h
  rw [Out.deliver_eq hm]
  refine h.map hg fun o ho => ?_
  split
  · next named => exact ho.update hm hv named.2
  · next other => exact .of_other other hm

theorem Out.ValveSafe.enterFailSafe (h : u.ValveSafe g m) (hm : m ≠ .config) : u.enterFailSafe.ValveSafe g m :=
  h.map h.guard fun _ ho => ho.enter hm

theorem Out.ValveSafe.leaveFailSafe (h : u.ValveSafe g m) : (u.leaveFailSafe m).ValveSafe g m := by
  unfold Out.leaveFailSafe
  split
  · exact h.map h.guard fun _ ho => ho.leave
  · exact h

theorem Out.ValveSafe.clearRise (h : u.ValveSafe g m) : u.clearRise.ValveSafe g m :=
  h.map h.guard fun _ ho => ho.congr rfl rfl rfl

theorem Out.ValveSafe.mark (h : u.ValveSafe g m) (i : OutputNo) (b : Bool) : (u.mark i b).ValveSafe g m :=
  h.set i ((h.output _ (Vector.getElem_mem i.isLt)).congr rfl rfl rfl)

/-- The runtime reset keeps the records and puts every output at 0 (R52). -/
theorem Out.ValveSafe.reset (h : u.ValveSafe g m) (m' : Mode) : u.reset.ValveSafe .tripped m' :=
  h.map (fun _ => rfl) fun _ ho => .of_zero ho.record rfl rfl

end unit

/-! ## The closed stop valve through the shared operations

Beside OUT's own operations, only TGD's guard state and MBC's mode matter to it; whatever changes no more than other fields of the
state keeps it by definition. -/

section shared

variable {s t : State} {g : Guard}

theorem State.ValveSafe.of_eq (h : s.ValveSafe)
    (e : (t.out, t.tgd.guard, t.mbc.mode) = (s.out, s.tgd.guard, s.mbc.mode)) : t.ValveSafe := by
  simp only [Prod.mk.injEq] at e
  obtain ⟨hout, hguard, hmode⟩ := e
  unfold State.ValveSafe
  rw [hout, hguard, hmode]
  exact h

theorem State.ValveSafe.of_frame {ps : List Part} (h : s.ValveSafe) (f : Frame ps s t)
    (hps : .out ∉ ps ∧ .tgd ∉ ps ∧ .mbc ∉ ps) : t.ValveSafe := by
  obtain ⟨ho, hg, hm⟩ := hps
  have hout : t.out = s.out := f.same .out ho
  have htgd : t.tgd = s.tgd := f.same .tgd hg
  have hmbc : t.mbc = s.mbc := f.same .mbc hm
  exact h.of_eq (by rw [hout, htgd, hmbc])

theorem raise_valveSafe (k : EventKind) (a b : Int) (h : s.ValveSafe) : (raise k a b s).ValveSafe := h.of_eq rfl

theorem raiseIf_valveSafe (c : Bool) (k : EventKind) (a b : Int) (h : s.ValveSafe) : (raiseIf c k a b s).ValveSafe :=
  h.of_frame (raiseIf_frame c k a b s) (by decide)

theorem raiseAll_valveSafe (es : List Report) (h : s.ValveSafe) : (raiseAll es s).ValveSafe :=
  h.of_frame (raiseAll_frame es s) (by decide)

theorem deliver_valveSafe {src : Source} (hsrc : src ≠ .stopValve) (v : Int) (h : s.ValveSafe) : (deliver src v s).ValveSafe :=
  Out.ValveSafe.deliver h hsrc v

/-- The guard delivers its stop demand from a state that it has moved to or stays in. -/
theorem deliverStop_valveSafe {v : Int} (h : s.out.ValveSafe g s.mbc.mode)
    (hm : s.mbc.mode = .config → s.tgd.guard = .tripped) (hv : s.tgd.guard = .tripped → v = 0) :
    (deliverStop v s).ValveSafe :=
  Out.ValveSafe.deliverStop h hm hv

theorem eitherOrder_valveSafe {f g : State → State} (hf : ∀ s : State, s.ValveSafe → (f s).ValveSafe)
    (hg : ∀ s : State, s.ValveSafe → (g s).ValveSafe) (h : s.ValveSafe) : (eitherOrder f g s).ValveSafe := by
  rcases eitherOrder_cases f g s with e | e <;> rw [e]
  · exact hg _ (hf _ (h.of_eq rfl))
  · exact hf _ (hg _ (h.of_eq rfl))

theorem foldl_valveSafe {α : Type} {f : State → α → State} (hf : ∀ s a, State.ValveSafe s → (f s a).ValveSafe)
    (l : List α) (h : s.ValveSafe) : (l.foldl f s).ValveSafe :=
  List.foldlRecOn l f h fun s hs a _ => hf s a hs

end shared

/-! ## The closed stop valve through TGD -/

section guard

variable {s : State}

theorem deliverBypass_valveSafe (h : s.ValveSafe) : (deliverBypass s).ValveSafe := by
  unfold deliverBypass
  exact deliver_valveSafe (by nofun) _ (h.of_eq rfl)

theorem setCap_valveSafe (h : s.ValveSafe) : (setCap s).ValveSafe := by
  unfold setCap
  dsimp only
  split
  · exact h.of_eq rfl
  · exact raise_valveSafe _ _ _ (h.of_eq rfl)

/-- A cause taken closes the stop valve as the guard moves to TRIPPED (R105). -/
theorem takeCause_valveSafe (c : Cause) (stale : Bool) (h : s.ValveSafe) : (takeCause c stale s).ValveSafe := by
  unfold takeCause
  split
  · next armed =>
    have hm : s.mbc.mode ≠ .config := fun hm => by simpa [armed] using Out.ValveSafe.guard h hm
    unfold tripActs
    exact setCap_valveSafe (deliverBypass_valveSafe (deliverStop_valveSafe h (absurd · hm) fun _ => rfl))
  · split
    · exact h
    · exact raise_valveSafe _ _ _ (h.of_eq rfl)

theorem takeHolding_valveSafe (c : Cause × Bool) (h : s.ValveSafe) : (takeHolding s c).ValveSafe := by
  unfold takeHolding
  exact takeCause_valveSafe _ _ h

theorem tgdCauses_valveSafe (h : s.ValveSafe) : (tgdCauses s).ValveSafe := by
  unfold tgdCauses
  exact foldl_valveSafe (fun _ => takeHolding_valveSafe) _ (h.of_eq rfl)

theorem tgdChain_valveSafe (h : s.ValveSafe) : (tgdChain s).ValveSafe := by
  unfold tgdChain
  exact raiseAll_valveSafe _ (h.of_eq rfl)

/-- At a snapshot the guard's stop demand is 0 while it is TRIPPED (R101, R105; log 12). -/
theorem tgdDemands_valveSafe (h : s.ValveSafe) : (tgdDemands s).ValveSafe := by
  unfold tgdDemands
  exact deliverBypass_valveSafe (deliverStop_valveSafe h (Out.ValveSafe.guard h) fun hg => by rw [hg]; rfl)

theorem tgdProcess_valveSafe (h : s.ValveSafe) : (tgdProcess s).ValveSafe := by
  unfold tgdProcess
  split
  · exact tgdDemands_valveSafe (tgdChain_valveSafe (tgdCauses_valveSafe (h.of_eq rfl)))
  · exact h

theorem chainReset_valveSafe (h : s.ValveSafe) : (chainReset s).ValveSafe := by
  unfold chainReset
  exact raiseIf_valveSafe _ _ _ _ (h.of_eq rfl)

theorem holdExpiry_valveSafe (st : HoldStep) (h : s.ValveSafe) : (holdExpiry st s).ValveSafe := by
  unfold holdExpiry
  split
  · exact raise_valveSafe _ _ _ (h.of_eq rfl)
  · exact h
  · exact h

theorem turbineTrip_valveSafe (h : s.ValveSafe) : (turbineTrip s).2.ValveSafe := by
  unfold turbineTrip
  split
  · exact h
  · split
    · exact h
    · exact takeCause_valveSafe .hostTrip false h

/-- A reset opens the stop valve with the guard ARMED, out of CONFIG (R116). -/
theorem turbineArm_valveSafe (hm : s.mbc.mode ≠ .config) (h : s.ValveSafe) : (turbineArm s).ValveSafe := by
  unfold turbineArm
  exact raise_valveSafe _ _ _ (deliverBypass_valveSafe (deliverStop_valveSafe h (absurd · hm) nofun))

theorem turbineReset_valveSafe (h : s.ValveSafe) : (turbineReset s).2.ValveSafe := by
  unfold turbineReset
  split
  · exact h
  · next mode =>
    have hm : s.mbc.mode ≠ .config := by rw [not_not.mp mode]; nofun
    repeat' split
    · exact h
    · exact h
    · exact h
    · exact turbineArm_valveSafe hm h

theorem turbineRelease_valveSafe (h : s.ValveSafe) : (turbineRelease s).2.ValveSafe := by
  unfold turbineRelease
  repeat' split
  all_goals exact h.of_eq rfl

end guard

/-! ## The closed stop valve through WSV -/

section wells

variable {s : State} (i : WellNo)

theorem setWell_valveSafe (w : Well) (h : s.ValveSafe) : (s.setWell i w).ValveSafe := h.of_eq rfl

theorem deliverWell_valveSafe (h : s.ValveSafe) : (deliverWell i s).ValveSafe := by
  unfold deliverWell
  exact deliver_valveSafe (by nofun) _ (deliver_valveSafe (by nofun) _ (h.of_eq rfl))

theorem grant_valveSafe (h : s.ValveSafe) : (grant i s).ValveSafe := by
  unfold grant
  exact raise_valveSafe _ _ _ (deliverWell_valveSafe i (h.of_eq rfl))

theorem arbiter_valveSafe (h : s.ValveSafe) : (arbiter s).ValveSafe := by
  unfold arbiter
  split
  · split
    · exact h
    · exact grant_valveSafe _ h
  · exact h

theorem tripWell_valveSafe (c : TripCause) (h : s.ValveSafe) : (tripWell c i s).ValveSafe := by
  have hslot : (if (s.well i).state = some .starting then releaseSlot s else s).ValveSafe := by
    split
    · exact h.of_eq rfl
    · exact h
  unfold tripWell
  exact deliverWell_valveSafe i (raise_valveSafe _ _ _ (hslot.of_eq rfl))

theorem noteBlind_valveSafe (k : EventKind) (r : Reading) (marked : Bool) (put : Bool → Well → Well) (h : s.ValveSafe) :
    (noteBlind k i r marked put s).ValveSafe := by
  unfold noteBlind
  repeat' split
  all_goals exact h.of_eq rfl

theorem noteFlow_valveSafe (h : s.ValveSafe) : (noteFlow i s).ValveSafe := noteBlind_valveSafe i _ _ _ _ h

theorem noteIntake_valveSafe (h : s.ValveSafe) : (noteIntake i s).ValveSafe := noteBlind_valveSafe i _ _ _ _ h

theorem noteMotor_valveSafe (h : s.ValveSafe) : (noteMotor i s).ValveSafe := by
  unfold noteMotor
  split
  · exact h
  · exact noteBlind_valveSafe i _ _ _ _ h

theorem startRunning_valveSafe (h : s.ValveSafe) : (startRunning i s).ValveSafe := by
  unfold startRunning
  exact raise_valveSafe _ _ _ (h.of_eq rfl)

theorem testStarting_valveSafe (h : s.ValveSafe) : (testStarting i s).ValveSafe := by
  unfold testStarting
  dsimp only
  split
  · exact tripWell_valveSafe i _ (noteMotor_valveSafe i h)
  · have hread : (noteFlow i (noteMotor i s)).ValveSafe := noteFlow_valveSafe i (noteMotor_valveSafe i h)
    split
    · exact startRunning_valveSafe i hread
    · exact hread

theorem testRunning_valveSafe (h : s.ValveSafe) : (testRunning i s).ValveSafe := by
  have hread : (noteIntake i (noteFlow i (noteMotor i s))).ValveSafe :=
    noteIntake_valveSafe i (noteFlow_valveSafe i (noteMotor_valveSafe i h))
  unfold testRunning
  dsimp only
  split
  · exact tripWell_valveSafe i _ (noteMotor_valveSafe i h)
  · split
    · exact tripWell_valveSafe i _ (setWell_valveSafe i _ hread)
    · exact setWell_valveSafe i _ hread

theorem processWell_valveSafe (h : s.ValveSafe) : (processWell s i).ValveSafe := by
  unfold processWell
  split
  · exact h
  · exact deliverWell_valveSafe i (testStarting_valveSafe i h)
  · exact deliverWell_valveSafe i (testRunning_valveSafe i h)
  · exact deliverWell_valveSafe i h

theorem wsvBalance_valveSafe (h : s.ValveSafe) : (wsvBalance s).ValveSafe := by
  unfold wsvBalance
  split
  · exact h.of_eq rfl
  · dsimp only [takeResult, takeHeld]
    split
    · exact raiseIf_valveSafe _ _ _ _ (raiseIf_valveSafe _ _ _ _ (h.of_eq rfl))
    · exact raiseIf_valveSafe _ _ _ _ (h.of_eq rfl)

theorem wsvWells_valveSafe (h : s.ValveSafe) : (wsvWells s).ValveSafe := foldl_valveSafe (fun _ => processWell_valveSafe) _ h

theorem wsvPhases_valveSafe (h : s.ValveSafe) : (wsvPhases s).ValveSafe := by
  have hwells : (wsvWells (wsvCeiling (wsvBalance s))).ValveSafe :=
    wsvWells_valveSafe ((wsvBalance_valveSafe h).of_eq rfl)
  unfold wsvPhases wsvGrant
  split
  · exact arbiter_valveSafe hwells
  · exact hwells

theorem frozenWell_valveSafe (h : s.ValveSafe) : (frozenWell s i).ValveSafe := by
  unfold frozenWell
  split
  · exact deliverWell_valveSafe i h
  · exact h

theorem wsvFrozen_valveSafe (h : s.ValveSafe) : (wsvFrozen s).ValveSafe := by
  unfold wsvFrozen
  exact foldl_valveSafe (fun _ => frozenWell_valveSafe) _ (h.of_eq rfl)

theorem wsvProcess_valveSafe (h : s.ValveSafe) : (wsvProcess s).ValveSafe := by
  unfold wsvProcess
  split
  · dsimp only
    split
    · exact wsvPhases_valveSafe (h.of_eq rfl)
    · exact wsvPhases_valveSafe (h.of_eq rfl)
    · exact wsvFrozen_valveSafe (h.of_eq rfl)
    · exact wsvFrozen_valveSafe (h.of_eq rfl)
  · exact h

theorem startExpiry_valveSafe (h : s.ValveSafe) : (startExpiry i s).ValveSafe := by
  unfold startExpiry
  split
  · exact arbiter_valveSafe (tripWell_valveSafe i .startFail (h.of_eq rfl))
  · exact h

theorem staggerExpiry_valveSafe (h : s.ValveSafe) : (staggerExpiry s).ValveSafe := by
  unfold staggerExpiry
  split
  · exact arbiter_valveSafe (h.of_eq rfl)
  · exact h

theorem stopWell_valveSafe (why : Int) (h : s.ValveSafe) : (stopWell why i s).ValveSafe := by
  unfold stopWell
  exact raise_valveSafe _ _ _ (deliverWell_valveSafe i (h.of_eq rfl))

theorem unqueueWell_valveSafe (h : s.ValveSafe) : (unqueueWell s i).ValveSafe := by
  unfold unqueueWell
  split
  · exact stopWell_valveSafe i 1 h
  · exact h

theorem emptyStartQueue_valveSafe (h : s.ValveSafe) : (emptyStartQueue s).ValveSafe := by
  have hstopped : ((List.finRange 16).foldl unqueueWell s).ValveSafe := foldl_valveSafe (fun _ => unqueueWell_valveSafe) _ h
  unfold emptyStartQueue
  generalize (List.finRange 16).foldl unqueueWell s = t at hstopped ⊢
  exact hstopped.of_eq rfl

theorem wellStart_valveSafe (h : s.ValveSafe) : (wellStart i s).2.ValveSafe := by
  unfold wellStart
  split
  · exact arbiter_valveSafe (raise_valveSafe _ _ _ (h.of_eq rfl))
  all_goals exact h

theorem wellStop_valveSafe (h : s.ValveSafe) : (wellStop i s).2.ValveSafe := by
  unfold wellStop
  split
  · exact stopWell_valveSafe i 0 h
  · exact arbiter_valveSafe (stopWell_valveSafe i 0 (h.of_eq rfl))
  · exact stopWell_valveSafe i 0 h
  · exact h

theorem wellAct_valveSafe (c : WellCommand) (h : s.ValveSafe) : (wellAct c i s).2.ValveSafe := by
  cases c with
  | start => exact wellStart_valveSafe i h
  | stop => exact wellStop_valveSafe i h
  | clear =>
    show (wellClear i s).2.ValveSafe
    unfold wellClear
    split <;> exact h.of_eq rfl
  | serviceOut =>
    show (wellServiceOut i s).2.ValveSafe
    unfold wellServiceOut
    dsimp only
    split <;> exact h.of_eq rfl
  | serviceIn =>
    show (wellServiceIn i s).2.ValveSafe
    unfold wellServiceIn
    split <;> exact h.of_eq rfl
  | hold =>
    show (wellHold true i s).2.ValveSafe
    unfold wellHold
    split <;> exact h.of_eq rfl
  | release =>
    show (wellHold false i s).2.ValveSafe
    unfold wellHold
    split <;> exact h.of_eq rfl

end wells

/-! ## The closed stop valve through HXU -/

section heat

variable {s : State}

theorem noteInput_valveSafe (i : Fin 7) (h : s.ValveSafe) : (noteInput s i).ValveSafe := by
  unfold noteInput
  exact raiseIf_valveSafe _ _ _ _ (h.of_eq rfl)

theorem hxuInputs_valveSafe (h : s.ValveSafe) : (hxuInputs s).ValveSafe :=
  foldl_valveSafe (fun _ => noteInput_valveSafe) _ h

theorem hxuFloor_valveSafe (h : s.ValveSafe) : (hxuFloor s).ValveSafe := by
  unfold hxuFloor
  dsimp only
  split
  · exact h.of_eq rfl
  · exact raiseAll_valveSafe _ (h.of_eq rfl)

theorem hxuPlan_valveSafe (h : s.ValveSafe) : (hxuPlan s).ValveSafe := by
  unfold hxuPlan
  dsimp only
  split <;> exact h.of_eq rfl

theorem guardTest_valveSafe (outlet : Reading) (h : s.ValveSafe) : (guardTest outlet s).ValveSafe := by
  unfold guardTest guardEngage
  dsimp only
  repeat' split
  all_goals exact h.of_eq rfl

theorem guardMove_valveSafe (outlet : Reading) (h : s.ValveSafe) : (guardMove outlet s).ValveSafe := by
  unfold guardMove guardAdjust
  dsimp only
  repeat' split
  all_goals exact h.of_eq rfl

theorem hxuGuard_valveSafe (h : s.ValveSafe) : (hxuGuard s).ValveSafe := guardMove_valveSafe _ (guardTest_valveSafe _ h)

theorem deliverHeat_valveSafe (d : Int) (h : s.ValveSafe) : (deliverHeat d s).ValveSafe := by
  unfold deliverHeat
  split
  · exact deliver_valveSafe (by nofun) d h
  · exact h

theorem hxuValve_valveSafe (h : s.ValveSafe) : (hxuValve s).ValveSafe := by
  unfold hxuValve
  exact deliverHeat_valveSafe _ (h.of_eq rfl)

theorem hxuMeter_valveSafe (h : s.ValveSafe) : (hxuMeter s).ValveSafe := by
  unfold hxuMeter
  dsimp only
  repeat' split
  all_goals exact h.of_eq rfl

theorem hxuDeficit_valveSafe (h : s.ValveSafe) : (hxuDeficit s).ValveSafe := by
  unfold hxuDeficit
  dsimp only
  generalize (if (s.hxu.deficit && !s.hxu.planHeld) = true then _ else s.hxu) = u
  repeat' split
  all_goals exact h.of_eq rfl

theorem hxuPhases_valveSafe (h : s.ValveSafe) : (hxuPhases s).ValveSafe := by
  have hguard : (hxuGuard (hxuPlan (hxuFloor (hxuInputs s)))).ValveSafe :=
    hxuGuard_valveSafe (hxuPlan_valveSafe (hxuFloor_valveSafe (hxuInputs_valveSafe h)))
  exact hxuDeficit_valveSafe (hxuMeter_valveSafe (hxuValve_valveSafe hguard))

theorem hxuProcess_valveSafe (h : s.ValveSafe) : (hxuProcess s).ValveSafe := by
  unfold hxuProcess
  split
  · dsimp only
    split
    · exact hxuPhases_valveSafe (h.of_eq rfl)
    · exact deliverHeat_valveSafe 0 (h.of_eq rfl)
  · exact h

end heat

/-! ## The closed stop valve through MBC -/

section modes

variable {s : State}

/-- The runtime reset leaves the guard TRIPPED with every output at 0, in CONFIG (R52, R71, R118). -/
theorem runtimeReset_valveSafe (h : s.ValveSafe) : (runtimeReset s).ValveSafe := Out.ValveSafe.reset h .config

/-- A change to a mode other than CONFIG asks nothing new (R53). -/
theorem changeMode_valveSafe {m : Mode} (hm : m ≠ .config) (h : s.ValveSafe) : (changeMode m s).ValveSafe :=
  Out.ValveSafe.mode h hm

theorem enterConfig_valveSafe (h : s.ValveSafe) : (enterConfig s).ValveSafe := by
  unfold enterConfig changeMode
  exact raise_valveSafe _ _ _ ((runtimeReset_valveSafe h).of_eq rfl)

theorem leaveConfig_valveSafe (h : s.ValveSafe) : (leaveConfig s).ValveSafe := by
  have hmode : (changeMode .standby s).ValveSafe := changeMode_valveSafe nofun h
  exact hmode.of_eq rfl

theorem enterLeaving_valveSafe (h : s.ValveSafe) : (enterLeaving s).ValveSafe :=
  eitherOrder_valveSafe (fun _ => raise_valveSafe _ _ _) (fun _ => emptyStartQueue_valveSafe) (Out.ValveSafe.mode h nofun)

theorem setConfig_valveSafe (h : s.ValveSafe) : (setConfig s).2.ValveSafe := by
  unfold setConfig
  split
  · exact h
  · exact enterConfig_valveSafe h
  · exact h
  · exact h

theorem setStandby_valveSafe (h : s.ValveSafe) : (setStandby s).2.ValveSafe := by
  unfold setStandby
  split
  · split
    · exact h
    · exact leaveConfig_valveSafe h
  · exact h
  · exact enterLeaving_valveSafe h
  · exact h

theorem setSupervise_valveSafe (h : s.ValveSafe) : (setSupervise s).2.ValveSafe := by
  unfold setSupervise
  split
  · exact h
  · split
    · exact changeMode_valveSafe nofun h
    · exact h
  · exact h
  · exact h

theorem setMode_valveSafe (p : List Byte) (h : s.ValveSafe) : (setMode p s).2.ValveSafe := by
  unfold setMode
  repeat' split
  · exact setConfig_valveSafe h
  · exact setStandby_valveSafe h
  · exact setSupervise_valveSafe h
  · exact h
  · exact h

theorem stage_valveSafe (p : List Byte) (h : s.ValveSafe) : (stage p s).2.ValveSafe := by
  unfold stage
  dsimp only
  repeat' split
  all_goals exact h.of_eq rfl

theorem activate_valveSafe (h : s.ValveSafe) : (activate s).ValveSafe := by
  unfold activate
  split
  · exact h
  · exact raise_valveSafe _ _ _ (h.of_eq rfl)

theorem directDemand_valveSafe (i : Fin 8) (h : s.ValveSafe) : (directDemand s i).ValveSafe := by
  unfold directDemand
  exact deliver_valveSafe (by nofun) _ h

theorem deliverDirect_valveSafe (h : s.ValveSafe) : (deliverDirect s).ValveSafe :=
  foldl_valveSafe (fun _ => directDemand_valveSafe) _ h

theorem endLeaving_valveSafe (h : s.ValveSafe) : (endLeaving s).ValveSafe := by
  unfold endLeaving
  split
  · exact changeMode_valveSafe nofun h
  · exact h

theorem mbcProcess_valveSafe (h : s.ValveSafe) : (mbcProcess s).ValveSafe := by
  unfold mbcProcess
  split
  · exact endLeaving_valveSafe (deliverDirect_valveSafe (activate_valveSafe (h.of_eq rfl)))
  · exact h

theorem fillPending_valveSafe (h : s.ValveSafe) : (fillPending s).ValveSafe := by
  have hprocess : (mbcProcess s).ValveSafe := mbcProcess_valveSafe h
  unfold fillPending
  generalize mbcProcess s = t at hprocess ⊢
  dsimp only
  split
  · exact hprocess.of_eq rfl
  · exact raise_valveSafe _ _ _ (hprocess.of_eq rfl)

theorem publishBank_valveSafe (p : List Byte) (h : s.ValveSafe) : (publishBank p s).2.ValveSafe := by
  unfold publishBank
  repeat' split
  · exact h
  · exact h
  · exact fillPending_valveSafe h
  · exact h

theorem resume_valveSafe (p : List Byte) (h : s.ValveSafe) : (resume p s).2.ValveSafe := by
  unfold resume
  repeat' split
  · exact h
  · exact raise_valveSafe _ _ _ (h.of_eq rfl)
  · exact h

theorem hostExpiry_valveSafe (h : s.ValveSafe) : (hostExpiry s).ValveSafe := by
  unfold hostExpiry
  split
  · exact h
  · exact raise_valveSafe _ _ _ (h.of_eq rfl)

end modes

/-! ## The closed stop valve through a snapshot and LIF -/

section loop

variable {s : State}

theorem catchUp_valveSafe (h : s.ValveSafe) : (catchUp s).ValveSafe := by
  have hguard : (tgdProcess (wsvProcess (mbcProcess s))).ValveSafe :=
    tgdProcess_valveSafe (wsvProcess_valveSafe (mbcProcess_valveSafe h))
  have hscale := (hxuProcess_valveSafe hguard).of_frame (scmProcess_frame _) (by decide)
  exact hscale.of_frame (capProcess_frame _) (by decide)

/-- A publication clears the rise marks, which do not matter (R44). -/
theorem fixView_valveSafe (h : s.ValveSafe) : (fixView s).ValveSafe := Out.ValveSafe.clearRise h

theorem handover_valveSafe (scan : ScanBuffer) (continuous : Bool) (h : s.ValveSafe) :
    (handover scan continuous s).ValveSafe := by
  have hcount : (countSnapshot continuous (catchUp s)).ValveSafe := (catchUp_valveSafe h).of_eq rfl
  exact fixView_valveSafe (hcount.of_frame (Frame.foldl (convertChannel_frame scan) _ _) (by decide))

theorem leftLocked_valveSafe (why : Int) (h : s.ValveSafe) : (leftLocked why s).ValveSafe :=
  eitherOrder_valveSafe (fun _ => raise_valveSafe _ _ _) (fun _ => chainReset_valveSafe) h

theorem loseFrames_valveSafe (why : Int) (since : Time) (h : s.ValveSafe) : (loseFrames why since s).ValveSafe := by
  unfold loseFrames
  dsimp only
  split
  · exact leftLocked_valveSafe why (h.of_eq rfl)
  · exact h.of_eq rfl

theorem lineSilence_valveSafe (h : s.ValveSafe) : (lineSilence s).ValveSafe := by
  unfold lineSilence
  split
  · exact loseFrames_valveSafe _ _ (h.of_eq rfl)
  · exact h

theorem countError_valveSafe (k : ErrorKind) (h : s.ValveSafe) : (countError k s).ValveSafe := by
  unfold countError
  exact raiseIf_valveSafe _ _ _ _ (h.of_eq rfl)

theorem afterFrame_valveSafe (expected : Option (Fin 6)) (h : s.ValveSafe) : (afterFrame expected s).ValveSafe := by
  unfold afterFrame
  split
  · exact (handover_valveSafe s.lif.buffer s.lif.continuous h).of_frame (lif_frame _ _) (by decide)
  · exact h

theorem judgeBadAlign_valveSafe (h : s.ValveSafe) : (judgeBadAlign s).ValveSafe := by
  have hcount := countError_valveSafe .alignment h
  unfold judgeBadAlign
  generalize countError .alignment s = t at hcount ⊢
  dsimp only
  split
  · exact loseFrames_valveSafe _ _ (hcount.of_eq rfl)
  · exact afterFrame_valveSafe _ (hcount.of_eq rfl)

theorem judgeOutOfSequence_valveSafe (index : Nat) (h : s.ValveSafe) : (judgeOutOfSequence index s).ValveSafe := by
  have hcount := countError_valveSafe .sequence h
  unfold judgeOutOfSequence
  generalize countError .sequence s = t at hcount ⊢
  dsimp only
  split
  · exact leftLocked_valveSafe 1 (hcount.of_eq rfl)
  · exact hcount.of_eq rfl

theorem takeFlags_valveSafe (i : Fin 6) (station remote : Bool) (h : s.ValveSafe) :
    (takeFlags i station remote s).ValveSafe := by
  unfold takeFlags
  exact raiseIf_valveSafe _ _ _ _ (raiseIf_valveSafe _ _ _ _ (raiseIf_valveSafe _ _ _ _ (h.of_eq rfl)))

/-- The end of BLIND has the stop valve act on its demand (R48). -/
theorem endBlind_valveSafe (h : s.ValveSafe) : (endBlind s).ValveSafe := by
  unfold endBlind
  split
  · exact Out.ValveSafe.leaveFailSafe h
  · exact h

theorem enterLocked_valveSafe (h : s.ValveSafe) : (enterLocked s).ValveSafe := by
  unfold enterLocked
  exact endBlind_valveSafe (raise_valveSafe _ _ _ (h.of_eq rfl))

theorem qualify_valveSafe (i : Fin 6) (h : s.ValveSafe) : (qualify i s).ValveSafe := by
  unfold qualify
  dsimp only
  split
  · exact h.of_eq rfl
  · split
    · exact enterLocked_valveSafe (h.of_eq rfl)
    · exact h.of_eq rfl

theorem collect_valveSafe (expected : Option (Fin 6)) (taken : Bool) (i : Fin 6) (slots : Vector Word 28) (h : s.ValveSafe) :
    (collect expected taken i slots s).ValveSafe := by
  unfold collect
  split
  · exact afterFrame_valveSafe _ (h.of_eq rfl)
  · exact qualify_valveSafe i h

theorem countCheck_valveSafe (good : Bool) (h : s.ValveSafe) : (countCheck good s).ValveSafe := by
  unfold countCheck
  split
  · exact h
  · exact countError_valveSafe .check h

theorem judgeInSequence_valveSafe (i : Fin 6) (f : LoopFrame) (h : s.ValveSafe) : (judgeInSequence i f s).ValveSafe := by
  unfold judgeInSequence
  exact collect_valveSafe _ _ _ _ (takeFlags_valveSafe _ _ _ (countCheck_valveSafe _ (h.of_eq rfl)))

theorem judgeFramed_valveSafe (f : LoopFrame) (h : s.ValveSafe) : (judgeFramed f s).ValveSafe := by
  unfold judgeFramed
  split
  · exact judgeBadAlign_valveSafe h
  · dsimp only
    split
    · exact judgeOutOfSequence_valveSafe _ (h.of_eq rfl)
    · exact judgeInSequence_valveSafe _ f (h.of_eq rfl)

theorem judgeFrame_valveSafe (f : LoopFrame) (h : s.ValveSafe) : (judgeFrame f s).ValveSafe := by
  unfold judgeFrame
  split
  · split
    · exact loseFrames_valveSafe _ _ h
    · exact judgeFramed_valveSafe f (h.of_eq rfl)
  · exact h

/-- BLIND in SUPERVISE and LEAVING puts the stop valve at its fail-safe value 0 (R46). -/
theorem outBlind_valveSafe (h : s.ValveSafe) : (outBlind s).ValveSafe := by
  unfold outBlind
  split
  · next drives =>
    have hm : s.mbc.mode ≠ .config := fun hm => by simp [hm, Mode.drives] at drives
    exact Out.ValveSafe.enterFailSafe h hm
  · exact h

theorem blindExpiry_valveSafe (h : s.ValveSafe) : (blindExpiry s).ValveSafe := by
  unfold blindExpiry
  split
  · exact h
  · exact eitherOrder_valveSafe (fun _ => raise_valveSafe _ _ _) (fun _ => takeCause_valveSafe .blind false)
      (outBlind_valveSafe (h.of_eq rfl))

end loop

/-! ## The closed stop valve through TABLE_WRITE and OUTPUT_CMD -/

/-- A record of a stop valve is read with fail-safe value 0 only (R40). -/
theorem OutputRecord.read_failSafe {b : List Byte} {r : OutputRecord} (h : OutputRecord.read b = some r)
    (hs : r.source = .stopValve) : r.failSafe = 0 := by
  simp only [OutputRecord.read, Option.bind_eq_bind, Option.bind_eq_some_iff, Option.ite_none_right_eq_some] at h
  obtain ⟨inUse, -, pos, -, source, -, ⟨-, hmax⟩, hr⟩ := h
  obtain rfl := Option.some.inj hr
  have hsource : source = .stopValve := hs
  rw [hsource] at hmax
  exact le_antisymm hmax (Int.natCast_nonneg _)

/-- OUTPUT is table 1, which is written in CONFIG only (Table 11-5). -/
theorem TableRef.find_output {t n : Nat} {i : OutputNo} (h : TableRef.find t n = some (.output i)) : configOnly t = true := by
  unfold TableRef.find at h
  split at h
  case h_2 => rfl
  all_goals simp at h

section store

variable {s : State}

theorem storeIf_valveSafe {α : Type} {r : Option α} {put : α → State} (h : s.ValveSafe)
    (hput : ∀ a, r = some a → (put a).ValveSafe) : (storeIf r put s).2.ValveSafe := by
  unfold storeIf
  split
  · exact h
  · exact hput _ rfl

/-- In CONFIG an OUTPUT record is stored with its output at 0 (R40, R52). -/
theorem storeOutput_valveSafe (i : OutputNo) (b : List Byte) (hm : s.mbc.mode = .config) (h : s.ValveSafe) :
    ((TableRef.output i).store b s).2.ValveSafe := by
  refine storeIf_valveSafe h fun r hr => Out.ValveSafe.set h i ?_
  obtain ⟨hd, hi⟩ := (Out.ValveSafe.output h _ (Vector.getElem_mem i.isLt)).config hm
  exact .of_zero (fun hs => OutputRecord.read_failSafe hr hs.2) hd hi

theorem store_valveSafe (ref : TableRef) (b : List Byte) (hm : ∀ i, ref = .output i → s.mbc.mode = .config)
    (h : s.ValveSafe) : (ref.store b s).2.ValveSafe := by
  cases ref with
  | output i => exact storeOutput_valveSafe i b (hm i rfl) h
  | curve i =>
    show (storeCurve i b s).2.ValveSafe
    unfold storeCurve
    split
    · exact h
    · exact storeIf_valveSafe h fun _ _ => h.of_eq rfl
  | heatCurve =>
    show (storeHeatCurve b s).2.ValveSafe
    unfold storeHeatCurve
    split
    · exact h
    · exact storeIf_valveSafe h fun _ _ => h.of_eq rfl
  | capture =>
    show (storeCapture b s).2.ValveSafe
    unfold storeCapture
    repeat' split
    · exact h
    · exact h
    · exact storeIf_valveSafe h fun _ _ => h.of_eq rfl
  | _ =>
    unfold TableRef.store
    exact storeIf_valveSafe h fun _ _ => h.of_eq rfl

theorem tableWrite_valveSafe (p : List Byte) (h : s.ValveSafe) : (tableWrite p s).2.ValveSafe := by
  unfold tableWrite
  split
  · next t i b =>
    show (writeTable t.toNat i.toNat b s).2.ValveSafe
    unfold writeTable
    split
    · exact h
    · next ref hfind =>
      split
      · exact h
      · next taken =>
        split
        · exact h
        · refine store_valveSafe ref b (fun j hj => ?_) h
          rw [hj] at hfind
          exact not_not.mp fun hm => taken ⟨TableRef.find_output hfind, hm⟩
  · exact h

/-- The out-of-service mark does not matter (R49). -/
theorem outputService_valveSafe (i : OutputNo) (b : Bool) (h : s.ValveSafe) : (outputService i b s).2.ValveSafe := by
  rw [outputService_answer]
  repeat' split
  · exact h
  · exact h
  · exact Out.ValveSafe.mark h i b

theorem outputCmd_valveSafe (p : List Byte) (h : s.ValveSafe) : (outputCmd p s).2.ValveSafe := by
  unfold outputCmd
  repeat' split
  · exact h
  · exact outputService_valveSafe _ true h
  · exact outputService_valveSafe _ false h
  · exact h
  · exact h

theorem wellCmd_valveSafe (p : List Byte) (h : s.ValveSafe) : (wellCmd p s).2.ValveSafe := by
  unfold wellCmd
  repeat' split
  · exact h
  · exact h
  · exact h
  · exact wellAct_valveSafe _ _ h
  · exact h

theorem turbineCmd_valveSafe (p : List Byte) (h : s.ValveSafe) : (turbineCmd p s).2.ValveSafe := by
  unfold turbineCmd
  repeat' split
  · exact turbineTrip_valveSafe h
  · exact turbineReset_valveSafe h
  · exact turbineRelease_valveSafe h
  · exact h
  · exact h

theorem clearEnergy_valveSafe (p : List Byte) (h : s.ValveSafe) : (clearEnergy p s).2.ValveSafe := by
  unfold clearEnergy
  split
  · exact raise_valveSafe _ _ _ (h.of_eq rfl)
  · exact h

end store

/-! ## The closed stop valve through every command -/

/-- A handler keeps the stop valve closed. -/
def HandlerValveSafe (handler : Handler) : Prop := ∀ (p : List Byte) (s : State), s.ValveSafe → (handler p s).2.ValveSafe

theorem HandlerValveSafe.of_frame {ps : List Part} {handler : Handler} (f : HandlerFrame ps handler)
    (hps : .out ∉ ps ∧ .tgd ∉ ps ∧ .mbc ∉ ps) : HandlerValveSafe handler :=
  fun p s h => h.of_frame (f p s) hps

theorem handlers_valveSafe : ∀ handler ∈ handlers, HandlerValveSafe handler := by
  simp only [handlers, List.cons_append, List.nil_append, List.forall_mem_cons, List.not_mem_nil, false_imp_iff, implies_true,
    and_true]
  refine ⟨.of_frame ident_frame (by decide), .of_frame status_frame (by decide), fun p _ => setMode_valveSafe p,
    .of_frame restart_frame (by decide), fun p _ => tableWrite_valveSafe p, .of_frame tableRead_frame (by decide),
    fun p _ => stage_valveSafe p, fun p _ => publishBank_valveSafe p, .of_frame readBank_frame (by decide),
    fun p _ => resume_valveSafe p, fun p _ => wellCmd_valveSafe p, .of_frame readWells_frame (by decide),
    fun p _ => turbineCmd_valveSafe p, .of_frame readTurbine_frame (by decide), fun p _ => outputCmd_valveSafe p,
    .of_frame readOutputs_frame (by decide), .of_frame force_frame (by decide), .of_frame unforce_frame (by decide),
    .of_frame trim_frame (by decide), .of_frame readChannels_frame (by decide), .of_frame setLab_frame (by decide),
    .of_frame ackAlarm_frame (by decide), .of_frame readScale_frame (by decide), .of_frame readHeat_frame (by decide),
    fun p _ => clearEnergy_valveSafe p, .of_frame readLoop_frame (by decide), .of_frame fetchEvents_frame (by decide),
    .of_frame captureCmd_frame (by decide), .of_frame readCapture_frame (by decide), .of_frame timeSet_frame (by decide),
    .of_frame timeSync_frame (by decide)⟩

theorem handlerOf_valveSafe (kind : Byte) : HandlerValveSafe (handlerOf kind) := by
  rcases handlerOf_mem kind with h | h
  · exact handlers_valveSafe _ h
  · rw [h]
    exact .of_frame unknown_frame (by decide)

section port

variable {s : State}

theorem anyFrame_valveSafe (kind : Byte) (r : Request) (h : s.ValveSafe) : (anyFrame kind r s).ValveSafe := by
  unfold anyFrame goodFrame
  split
  · exact h.of_eq rfl
  · exact (handlerOf_valveSafe kind r.payload s.hears (h.of_eq rfl)).of_eq rfl

theorem receiver_valveSafe (rx : CptRx) (h : s.ValveSafe) : (receiver rx s).ValveSafe := h.of_eq rfl

theorem completeFrame_valveSafe (kind : Byte) (r : Request) (crc : Word) (h : s.ValveSafe) :
    (completeFrame kind r crc s).ValveSafe := by
  unfold completeFrame
  split
  · exact anyFrame_valveSafe kind r h
  · exact receiver_valveSafe _ h

theorem judgeByte_valveSafe (b : Byte) (h : s.ValveSafe) : (judgeByte b s).ValveSafe := by
  unfold judgeByte
  split
  · split
    · exact receiver_valveSafe _ h
    · exact h
  · exact receiver_valveSafe _ h
  · exact receiver_valveSafe _ h
  · exact receiver_valveSafe _ h
  · unfold completeBody
    split
    · exact completeFrame_valveSafe _ _ _ h
    · exact receiver_valveSafe _ h

theorem takeByte_valveSafe (b : Byte) (h : s.ValveSafe) : (takeByte b s).ValveSafe := by
  unfold takeByte
  refine judgeByte_valveSafe b ?_
  split
  · exact receiver_valveSafe _ h
  · exact h

theorem restartNow_valveSafe (h : s.ValveSafe) : (restartNow s).ValveSafe := (runtimeReset_valveSafe h).of_eq rfl

theorem replyEnds_valveSafe (h : s.ValveSafe) : (replyEnds s).ValveSafe := by
  unfold replyEnds emptyBuffer
  split
  · exact h
  · split
    · exact restartNow_valveSafe (h.of_eq rfl)
    · exact h.of_eq rfl

theorem restartEnds_valveSafe (h : s.ValveSafe) : (restartEnds s).ValveSafe := by
  unfold restartEnds
  split
  · exact h
  · split
    · exact restartNow_valveSafe (h.of_eq rfl)
    · exact h

/-- At power-on no output is in use, every output is at 0, and the guard is TRIPPED (R52, R118, R178). -/
theorem powerOn_valveSafe (straps : BitVec 2) (s : State) : (powerOn straps s).ValveSafe := by
  refine ⟨fun _ => rfl, fun o ho => ?_⟩
  obtain rfl : o = Output.init .default := Vector.eq_of_mem_replicate ho
  exact .of_zero (fun _ => rfl) rfl rfl

end port

theorem live_valveSafe {s t : State} {f : State → State} (h : s.ValveSafe) (hf : (f s).ValveSafe) (e : live s f = .next t) :
    t.ValveSafe := by
  obtain rfl := Host.Outcome.next.inj e
  split
  · exact h
  · exact hf

/-- A row that is a good frame acts as the frame of its kind does (R173). -/
theorem exec_frameRow {c : Instr} {kind : Byte} {r : Request} (s : State) (h : c.frame = some (kind, r)) :
    exec c s = live s (anyFrame kind r) := by
  cases c <;> cases h <;> rfl

/-- Every command keeps the stop valve closed: a frame by its handler, a job or a timer by its block, and the rest because they
leave OUT, TGD and MBC alone. -/
theorem exec_valveSafe {c : Instr} {s t : State} (h : s.ValveSafe) (e : exec c s = .next t) : t.ValveSafe := by
  cases hf : c.frame with
  | some p => exact live_valveSafe h (anyFrame_valveSafe p.1 p.2 h) ((exec_frameRow s hf).symm.trans e)
  | none =>
    cases c with
    | restartEffect => exact live_valveSafe h (restartEnds_valveSafe h) e
    | crcMismatchDiscard kind r crc => exact live_valveSafe h (completeFrame_valveSafe kind r crc h) e
    | badLenDiscard b => exact live_valveSafe h (takeByte_valveSafe b h) e
    | replySent => exact live_valveSafe h (replyEnds_valveSafe h) e
    | powerOnReset straps => exact Host.Outcome.next.inj e ▸ powerOn_valveSafe straps s
    | frameJudge f => exact live_valveSafe h (judgeFrame_valveSafe f h) e
    | lineSilenceTimeout => exact live_valveSafe h (lineSilence_valveSafe h) e
    | blindTimerExpiry => exact live_valveSafe h (blindExpiry_valveSafe h) e
    | mbcProcessSnapshot => exact live_valveSafe h (mbcProcess_valveSafe h) e
    | hostTimerExpiry => exact live_valveSafe h (hostExpiry_valveSafe h) e
    | wsvProcessSnapshot => exact live_valveSafe h (wsvProcess_valveSafe h) e
    | startTimerExpiry i => exact live_valveSafe h (startExpiry_valveSafe i h) e
    | staggerTimerExpiry => exact live_valveSafe h (staggerExpiry_valveSafe h) e
    | tgdProcessSnapshot => exact live_valveSafe h (tgdProcess_valveSafe h) e
    | permissiveHoldExpiry st => exact live_valveSafe h (holdExpiry_valveSafe st h) e
    | hxuProcessSnapshot => exact live_valveSafe h (hxuProcess_valveSafe h) e
    | framingErrorAbandon | gapAbandon | resetPinLow | candidateMatch | candidateConfirm | candidateFail | huntIntervalExpiry
    | searchDwellExpiry | outboundScanStart | outboundFrameStart | scmProcessSnapshot | capProcessSnapshot | clockAdvance =>
      exact h.of_frame (exec_frame e) (by simp [Instr.parts])
    | _ => exact nomatch hf

/-- An idle step moves the time base and the queue alone. -/
theorem tick_valveSafe {s : State} (h : s.ValveSafe) : (tick s).ValveSafe := by
  unfold tick
  split
  · exact h
  · exact h.of_eq rfl

/-- Settles O59: the invariant speaks of OUT, the guard and the mode, and both an idle step and every command keep it. -/
theorem stopValveInvKept : Obligations.StopValveInvKept := by
  intro s t hs e
  rw [stopValveInv_iff] at hs ⊢
  unfold step at e
  split at e
  · obtain rfl := Host.Outcome.next.inj e
    exact tick_valveSafe hs
  · refine exec_valveSafe ?_ e
    exact hs.of_eq rfl

end Sys2Proof.Machine

/-! PROOFS. Modes, setpoint banks and link supervision: a good frame and its reply, MBC at a snapshot, the bank requests, the
consistency check, and the moves between modes (R53 to R70, R88, R171, R173, R174). -/

namespace Sys2Proof.Machine

/-! ## A good frame and its reply (R171, R173, R174) -/

/-- The three flags of a reply stand in bits 0 to 2, and no other bit is set. -/
theorem flagByte_three_bits (a b c : Bool) :
    let f : Byte := BitVec.ofInt 8 (flagByte [a, b, c])
    f.getLsbD 0 = a ∧ f.getLsbD 1 = b ∧ f.getLsbD 2 = c ∧ f.toNat < 8 := by
  revert a b c; decide

theorem replyDelay_le (free : Nat) : replyDelay free ≤ 1000 := Nat.min_le_left _ _

/-- Settles O5: what is heard and what is replied are the model's definitions written out; the flags are three bits. -/
theorem frameHeardAndReplyFormed : Obligations.FrameHeardAndReplyFormed := by
  refine ⟨fun s => rfl, fun kind r st payload s => ⟨?reply, ?flags⟩, fun st => ?code, fun x => ⟨rfl, rfl, rfl⟩,
    fun b bs => ⟨rfl, rfl⟩⟩
  case reply => exact ⟨replyDelay s.free, replyDelay_le s.free, rfl⟩
  case flags => exact flagByte_three_bits s.evq.attnLow (decide (s.mbc.link = .silent)) s.cpt.overrun
  case code => cases st <;> rfl

/-- A kind outside Table 11-4 has no owner (R174). -/
theorem handlerOf_unknown {kind : Byte} (h : kind.toNat = 0 ∨ 31 < kind.toNat) : handlerOf kind = unknown := by
  have hk : ¬knownKind kind = true := by
    rw [knownKind, decide_eq_true_iff]
    omega
  exact if_neg hk

/-- Settles O6: a row that is a good frame acts as the frame of its kind does, and the buffer decides whether it is taken. -/
theorem goodFrameTaken : Obligations.GoodFrameTaken := by
  refine ⟨fun c kind r s hf hs => ?_, fun kind r => ⟨rfl, rfl⟩⟩
  have row : exec c s = .next (goodFrame kind (handlerOf kind) r s) := (exec_frameRow s hf).trans (live_next _ hs)
  refine ⟨fun hb => ?taken, fun hb hk => ?unknown, fun hb => ?full⟩
  case taken => rw [row, goodFrame_taken kind _ r hb]
  case unknown =>
    rw [row, goodFrame_taken kind _ r hb, handlerOf_unknown hk]
    rfl
  case full =>
    rw [row, goodFrame_full kind _ r hb]
    rfl

/-! ## MBC at a snapshot (R59, R64) -/

section mbcProcess

variable {s : State}

/-- Without a snapshot to process MBC does nothing (log 4). -/
theorem mbcProcess_idle (h : s.todo.mbc = false) : mbcProcess s = s := if_neg (by simp [h])

theorem mbcProcess_due (h : s.todo.mbc = true) :
    mbcProcess s = endLeaving (deliverDirect (activate { s with todo := { s.todo with mbc := false } })) := if_pos h

end mbcProcess

section activate

variable (s : State)

@[simp] theorem activate_view : (activate s).view = s.view := by unfold activate; split <;> rfl
@[simp] theorem activate_mode : (activate s).mbc.mode = s.mbc.mode := by unfold activate; split <;> rfl
@[simp] theorem activate_staging : (activate s).mbc.staging = s.mbc.staging := by unfold activate; split <;> rfl
@[simp] theorem activate_pubCount : (activate s).mbc.pubCount = s.mbc.pubCount := by unfold activate; split <;> rfl

end activate

/-- DIRECT takes its values from a view that no delivery changes. -/
theorem foldl_directDemand (v : View) : ∀ (l : List (Fin 8)) (s : State), s.view = v →
    l.foldl directDemand s = l.foldl (fun t i => deliver (.direct i) v.active.direct[i] t) s
  | [], _, _ => rfl
  | i :: l, s, h => by
    subst h
    exact foldl_directDemand s.view l (directDemand s i) rfl

@[simp] theorem deliverDirect_view (s : State) : (deliverDirect s).view = s.view :=
  foldl_keeps (·.view) directDemand (fun _ _ => rfl) _ s

@[simp] theorem deliverDirect_mbc (s : State) : (deliverDirect s).mbc = s.mbc :=
  foldl_keeps (·.mbc) directDemand (fun _ _ => rfl) _ s

theorem View.starting_eq_false_iff (v : View) : v.starting = false ↔ ∀ i : WellNo, v.wells[i] ≠ some .starting := by
  simp [View.starting, Vector.any_eq_false, Fin.forall_iff]

/-- The test for the end of LEAVING, with the view's wells written out (R59). -/
theorem endLeaving_eq (s : State) : endLeaving s =
    if s.mbc.mode = .leaving ∧ s.view.mode = .leaving ∧ ∀ i : WellNo, s.view.wells[i] ≠ some .starting then
      raise .bankMode 0 1 { s with mbc := { s.mbc with mode := .standby } }
    else s :=
  if_congr (and_congr_right' (and_congr_right' ((Bool.not_eq_true' _).to_iff.trans s.view.starting_eq_false_iff))) rfl rfl

section endLeaving

variable (s : State)

@[simp] theorem endLeaving_staging : (endLeaving s).mbc.staging = s.mbc.staging := by unfold endLeaving; split <;> rfl
@[simp] theorem endLeaving_pubCount : (endLeaving s).mbc.pubCount = s.mbc.pubCount := by unfold endLeaving; split <;> rfl

end endLeaving

/-- The parameter of SILENT as a number: bit 0 a full PENDING, bit 1 a link SILENT already (R68). -/
theorem silentParam_eq (m : Mbc) :
    m.silentParam = (if m.pubBank = none then 0 else 1) + if m.link = .silent then 2 else 0 := by
  have hlink : 2 * bit (decide (m.link = .silent)) = if m.link = .silent then 2 else 0 := by
    simp only [mul_bit, decide_eq_true_eq]
  have hbank : bit m.pubBank.isSome = if m.pubBank = none then 0 else 1 := by
    rw [← mul_bit_isSome, one_mul]
  simp only [Mbc.silentParam, flagByte, hlink, hbank, mul_zero, add_zero]

/-- Settles O31: MBC activates, delivers DIRECT from the view, and tests the end of LEAVING; the expiry is one update. -/
theorem banksActivated : Obligations.BanksActivated := by
  refine ⟨fun s hs => ⟨fun hidle => ?idle, fun hdue => ?due⟩, fun s hs => ⟨fun hnone => ?stopped, fun t ht => ?expires⟩⟩
  case idle => rw [exec_mbcProcessSnapshot hs, mbcProcess_idle hidle]
  case due =>
    intro s1 s2 s3
    have hactivate : activate s1 = s2 := rfl
    have hview : s2.view = s.view := hactivate ▸ activate_view s1
    have hmode : s2.mbc.mode = s.mbc.mode := hactivate ▸ activate_mode s1
    have hdirect : deliverDirect s2 = s3 := foldl_directDemand s.view _ s2 hview
    rw [exec_mbcProcessSnapshot hs, mbcProcess_due hdue, hactivate, endLeaving_eq, hdirect]
    simp only [← hdirect, deliverDirect_mbc, deliverDirect_view, hview, hmode]
  case stopped =>
    have hexpiry : hostExpiry s = s := by simp only [hostExpiry, hnone]
    exact (live_next hostExpiry hs).trans (congrArg _ hexpiry)
  case expires =>
    refine (live_next hostExpiry hs).trans (congrArg _ ?_)
    simp only [hostExpiry, ht, silentParam_eq]
    rfl

/-! ## Banks (R62, R63, R64, R70) -/

/-- A value brought into a nonempty range. -/
theorem clamp_eq_max_min {lo hi : Int} (h : lo ≤ hi) (x : Int) : clamp lo hi x = max lo (min hi x) := by
  unfold clamp
  split
  · omega
  · split <;> omega

theorem Item.clamped_eq (i : Item) :
    i.clamped = if i.field = 17 then max (-200) (min 200 i.value) else max 0 (min 1000 i.value) := by
  rw [Item.clamped, clamp_eq_max_min (by decide), clamp_eq_max_min (by decide)]

/-! An item reaches the field of its id and no other (R62). -/

section put

variable (b : Bank) (i : Item)

theorem Bank.put_speeds (w : WellNo) : (b.put i).speeds[w] = if i.field = w.val then i.clamped else b.speeds[w] := by
  unfold Bank.put
  split
  · simp [Vector.getElem_set]
  · rw [if_neg (show i.field ≠ w.val by omega)]
    repeat' split
    all_goals rfl

theorem Bank.put_scalars : (b.put i).heatCeiling = (if i.field = 16 then i.clamped else b.heatCeiling) ∧
    (b.put i).shift = (if i.field = 17 then i.clamped else b.shift) ∧
    (b.put i).bypass = (if i.field = 18 then i.clamped else b.bypass) := by
  refine ⟨?_, ?_, ?_⟩
  all_goals
    unfold Bank.put
    repeat' split
    all_goals first | rfl | omega

theorem Bank.put_direct (k : Fin 8) : (b.put i).direct[k] = if i.field = 19 + k.val then i.clamped else b.direct[k] := by
  by_cases h : 19 ≤ i.field ∧ i.field < 27
  · have hput : b.put i = { b with direct := b.direct.set (i.field - 19) i.clamped (by omega) } := by
      rw [Bank.put, dif_neg (by omega), if_neg (by omega), if_neg (by omega), if_neg (by omega), dif_pos h.2]
    have hk : i.field - 19 = k.val ↔ i.field = 19 + k.val := by omega
    simp [hput, Vector.getElem_set, hk]
  · rw [if_neg (show i.field ≠ 19 + k.val by omega)]
    unfold Bank.put
    repeat' split
    all_goals first | rfl | omega

end put

/-- A field id above 26 in a list of items (R62). -/
theorem any_badField_iff (is : List Item) : (is.any fun i => decide (26 < i.field)) = true ↔ ∃ i ∈ is, 26 < i.field := by
  simp only [List.any_eq_true, decide_eq_true_iff]

section publish

variable (s : State)

@[simp] theorem mbcProcess_staging : (mbcProcess s).mbc.staging = s.mbc.staging := by
  unfold mbcProcess
  split
  · simp
  · rfl

@[simp] theorem mbcProcess_pubCount : (mbcProcess s).mbc.pubCount = s.mbc.pubCount := by
  unfold mbcProcess
  split
  · simp
  · rfl

/-- PENDING filled: the new count and the copy of STAGING are those of the request, whatever MBC did first (R63, R64). -/
theorem fillPending_eq : fillPending s =
    let u := mbcProcess s
    let n := s.mbc.pubCount + 1
    let full : State := { u with mbc := { u.mbc with pubCount := n, pubBank := some ⟨s.mbc.staging, n⟩ } }
    match u.mbc.pubBank with
    | none => full
    | some old => raise .bankSuperseded 0 old.count.toNat full := by
  rw [← mbcProcess_staging s, ← mbcProcess_pubCount s]
  rfl

theorem fillPending_pubCount : (fillPending s).mbc.pubCount = s.mbc.pubCount + 1 := by
  rw [fillPending_eq]
  dsimp only
  split <;> rfl

/-- PUBLISH without a payload (R63). -/
theorem publishBank_empty : publishBank [] s =
    if s.mbc.mode = .config then answer .wrongMode [] s
    else if s.mbc.link = .silent then answer .linkLocked [] s
    else answer .ok (put16 (s.mbc.pubCount + 1).toNat) (fillPending s) := by
  simp only [publishBank, fillPending_pubCount, put16_toInt]
  rfl

end publish

theorem publishBank_checksLength : ChecksLength 0 publishBank := fun p s h => by
  unfold publishBank
  split <;> [exact absurd rfl h; rfl]

theorem resume_checksLength : ChecksLength 0 resume := fun p s h => by
  unfold resume
  split <;> [exact absurd rfl h; rfl]

/-- Settles O30: STAGE by its three checks, PUBLISH by what `fillPending` does after MBC, RESUME by the link state. -/
theorem bankRequestsTaken : Obligations.BankRequestsTaken := by
  refine ⟨⟨fun r s ready => ?stage, rfl, fun _ _ _ _ => rfl, Item.clamped_eq, fun b i _ => ?put⟩,
    fun r s ready => ⟨fun hp => ?badLength, fun hp => ⟨?publish, ?resume⟩⟩⟩
  case stage =>
    intro is
    rw [exec_request (c := .stage r) ready rfl, stage]
    simp only [apply_ite (fillBuffer 0x07 r)]
    exact congrArg _ (if_congr Iff.rfl rfl (if_congr Iff.rfl rfl (if_congr (any_badField_iff is) rfl rfl)))
  case put =>
    obtain ⟨hceiling, hshift, hbypass⟩ := b.put_scalars i
    exact ⟨b.put_speeds i, hceiling, hshift, hbypass, b.put_direct i⟩
  case badLength =>
    have hl : r.payload.length ≠ 0 := mt List.eq_nil_of_length_eq_zero hp
    exact ⟨exec_badLength ready rfl publishBank_checksLength hl, exec_badLength ready rfl resume_checksLength hl⟩
  case publish =>
    refine ⟨mbcProcess s.hears, exec_mbcProcessSnapshot ready.1, mbcProcess_idle (s := s.hears), ?_⟩
    rw [exec_request (c := .publish r) ready rfl, hp, publishBank_empty]
    simp only [apply_ite (fillBuffer 0x08 r), fillPending_eq]
    rfl
  case resume =>
    rw [exec_request (c := .resume r) ready rfl, hp, resume]
    simp only [apply_ite (fillBuffer 0x0A r)]
    rfl

/-! ## The consistency check (R56, R57) -/

/-- What a test finds is the first of a list of failures, each given by the five numbers of the BAD_CONFIG reply (R57). -/
def FindsFirst (found : Option Failure) (numbers : List (List Nat)) : Prop :=
  found.map Failure.bytes = numbers.head?.map fun f => f.map (BitVec.ofNat 8)

theorem Failure.bytes_natCast (test table index reason detail : Nat) :
    Failure.bytes ⟨test, table, index, reason, detail⟩ = [test, table, index, reason, detail].map (BitVec.ofNat 8) := by
  simp [Failure.bytes, put8]

theorem firstFailure_cons {α : Type} (check : α → Option Failure) (a : α) (as : List α) :
    firstFailure check (a :: as) = (check a).or (firstFailure check as) := by
  rw [firstFailure]
  cases check a <;> rfl

namespace FindsFirst

theorem nil : FindsFirst none [] := rfl

theorem single (test table index reason detail : Nat) :
    FindsFirst (some ⟨test, table, index, reason, detail⟩) [[test, table, index, reason, detail]] :=
  congrArg _ (Failure.bytes_natCast test table index reason detail)

variable {o o' : Option Failure} {l l' : List (List Nat)}

theorem append (h : FindsFirst o l) (h' : FindsFirst o' l') : FindsFirst (o.or o') (l ++ l') := by
  unfold FindsFirst at *
  rw [Option.map_or, List.head?_append, Option.map_or, h, h']

theorem ite {p q : Prop} [Decidable p] [Decidable q] (hpq : p ↔ q) (h : FindsFirst o l) (h' : FindsFirst o' l') :
    FindsFirst (if p then o else o') (if q then l else l') := by
  by_cases hp : p
  · rwa [if_pos hp, if_pos (hpq.mp hp)]
  · rwa [if_neg hp, if_neg (mt hpq.mpr hp)]

/-- A test over a list finds the first failure of the first item that fails it. -/
theorem flatMap {α : Type} {check : α → Option Failure} {numbers : α → List (List Nat)}
    (h : ∀ a, FindsFirst (check a) (numbers a)) : ∀ as : List α, FindsFirst (firstFailure check as) (as.flatMap numbers)
  | [] => nil
  | a :: as => by
    rw [firstFailure_cons, List.flatMap_cons]
    exact (h a).append (flatMap h as)

end FindsFirst

theorem firstFailure_map {α β : Type} (f : α → β) (check : β → Option Failure) :
    ∀ as : List α, firstFailure check (as.map f) = firstFailure (check ∘ f) as
  | [] => rfl
  | a :: as => by rw [List.map_cons, firstFailure_cons, firstFailure_cons, firstFailure_map f check as]; rfl

theorem firstFailure_range (n : Nat) (check : Nat → Option Failure) :
    firstFailure check (List.range n) = firstFailure (fun i : Fin n => check i) (List.finRange n) := by
  rw [← List.map_coe_finRange_eq_range, firstFailure_map]
  rfl

/-- The lowest number below an index that meets a condition is the first of all indices below it that do. -/
theorem earlier_eq {n : Nat} (i : Fin n) (p : Nat → Bool) :
    earlier i p = ((List.finRange n).filter fun j => decide (j < i) && p j).head?.map Fin.val := by
  have hall : (List.range n).find? (fun j => decide (j < i.val) && p j) =
      ((List.finRange n).filter fun j => decide (j < i) && p j).head?.map Fin.val := by
    rw [← List.map_coe_finRange_eq_range, List.find?_map, List.head?_filter]
    rfl
  rw [← hall]
  refine Option.ext fun k => ?_
  rw [earlier, List.find?_range_eq_some, List.find?_range_eq_some]
  simp only [List.mem_range, Bool.and_eq_true, decide_eq_true_iff, Bool.not_eq_true', Bool.and_eq_false_iff,
    decide_eq_false_iff_not]
  have := i.isLt
  constructor
  · rintro ⟨hp, hk, hfirst⟩
    exact ⟨⟨hk, hp⟩, by omega, fun j hj => .inr (hfirst j hj)⟩
  · rintro ⟨⟨hk, hp⟩, -, hfirst⟩
    exact ⟨hp, hk, fun j hj => (hfirst j hj).resolve_left (by omega)⟩

/-- Tests 1 to 3 at an index: an item in use that has the same key as an earlier one in use (log 19). -/
def clashCheck {R K : Type} [DecidableEq K] (used : Nat → Option R) (key : R → K) (test table reason i : Nat) :
    Option Failure :=
  (used i).bind fun c => (earlier i fun j => decide ((used j).map key = some (key c))).map
    fun j => ⟨test, table, (i : Int), reason, (j : Int)⟩

theorem checkChannelPositions_eq (s : State) : checkChannelPositions s =
    firstFailure (clashCheck s.acq.used ChannelRecord.pos 1 0 1) (List.range 96) := by
  refine congrArg (firstFailure · _) (funext fun i => ?_)
  rw [clashCheck]
  cases s.acq.used i <;> rfl

theorem checkOutputPositions_eq (s : State) : checkOutputPositions s =
    firstFailure (clashCheck s.out.used OutputRecord.pos 2 1 1) (List.range 64) := by
  refine congrArg (firstFailure · _) (funext fun i => ?_)
  rw [clashCheck]
  cases s.out.used i <;> rfl

theorem checkOutputSources_eq (s : State) : checkOutputSources s =
    firstFailure (clashCheck s.out.used OutputRecord.source 3 1 2) (List.range 64) := by
  refine congrArg (firstFailure · _) (funext fun i => ?_)
  rw [clashCheck]
  cases s.out.used i <;> rfl

theorem clashCheck_findsFirst {R K : Type} [DecidableEq K] {n : Nat} {used : Nat → Option R} {inUse : R → Bool}
    (record : Fin n → R) (key : R → K) (hused : ∀ i : Fin n, used i = if inUse (record i) then some (record i) else none)
    (test table reason : Nat) : FindsFirst (firstFailure (clashCheck used key test table reason) (List.range n))
      ((List.finRange n).flatMap fun i => ((List.finRange n).filter fun j => decide (j < i) && inUse (record i)
        && inUse (record j) && decide (key (record j) = key (record i))).map fun j => [test, table, i.val, reason, j.val]) := by
  rw [firstFailure_range]
  refine FindsFirst.flatMap (fun i => ?_) _
  rw [clashCheck, hused i]
  cases inUse (record i) with
  | false => simpa using FindsFirst.nil
  | true =>
    have hcond : ∀ j : Fin n, (decide (j < i) && true && inUse (record j) && decide (key (record j) = key (record i))) =
        (decide (j < i) && decide ((used j).map key = some (key (record i)))) := fun j => by
      rw [hused j]
      cases inUse (record j) <;> simp
    simp only [↓reduceIte, Option.bind_some, earlier_eq, hcond]
    generalize (List.finRange n).filter _ = clashes
    cases clashes with
    | nil => exact .nil
    | cons j _ => exact .single test table i reason j

theorem Acq.used_fin (a : Acq) (i : ChannelNo) : a.used i = if a.chans[i].cfg.inUse then some a.chans[i].cfg else none := by
  simp [Acq.used, Acq.rec?, Option.filter]

theorem Out.used_fin (u : Out) (i : OutputNo) : u.used i = if u.outs[i].cfg.inUse then some u.outs[i].cfg else none := by
  simp [Out.used, Out.rec?, Option.filter]

/-- An output in use that names a source, sought by number. -/
theorem Out.carries_eq (u : Out) (src : Source) : u.carries src =
    (List.finRange 64).any fun i : OutputNo => u.outs[i].cfg.inUse && decide (u.outs[i].cfg.source = src) := by
  rw [Bool.eq_iff_iff]
  simp [Out.carries, Vector.any_eq_true, Fin.exists_iff]

/-- Test 4: a WELL_RUN or WELL_SPEED output in use that names a well of role UNUSED. -/
theorem checkOutputWells_findsFirst (s : State) : FindsFirst (checkOutputWells s)
    ((List.finRange 64).flatMap fun i => match s.out.outs[i].cfg.inUse, s.out.outs[i].cfg.source with
      | true, .wellRun w | true, .wellSpeed w => if s.wsv.wells[w].cfg.role = .unused then [[4, 1, i.val, 6, w.val]] else []
      | _, _ => []) := by
  rw [checkOutputWells, firstFailure_range]
  refine FindsFirst.flatMap (fun i => ?_) _
  have hwell : ∀ w : WellNo, FindsFirst (if s.wsv.wells[w].cfg.inRole then none else some ⟨4, 1, (i.val : Nat), 6, w.val⟩)
      (if s.wsv.wells[w].cfg.role = .unused then [[4, 1, i.val, 6, w.val]] else []) := fun w => by
    rw [← ite_not]
    exact .ite (by simp [WellRecord.inRole]) (.single 4 1 i 6 w) .nil
  rw [s.out.used_fin i]
  cases s.out.outs[i].cfg.inUse with
  | false => exact .nil
  | true =>
    simp only [↓reduceIte, Option.bind_some]
    cases s.out.outs[i].cfg.source with
    | wellRun w | wellSpeed w => exact hwell w
    | heatValve | bypassValve | stopValve | direct => exact .nil

/-- Test 5: a well in a role without its two outputs. -/
theorem checkWellOutputs_findsFirst (s : State) : FindsFirst (checkWellOutputs s)
    ((List.finRange 16).flatMap fun w =>
      if s.wsv.wells[w].cfg.role = .unused ∨ (s.out.carries (.wellRun w) = true ∧ s.out.carries (.wellSpeed w) = true) then []
      else [[5, 2, w.val, 5, 255]]) := by
  refine FindsFirst.flatMap (fun w => ?_) _
  rw [← ite_not (p := s.wsv.wells[w].cfg.role = .unused ∨ _)]
  refine .ite ?_ (.single 5 2 w 5 255) .nil
  simp only [WellRecord.inRole, Bool.and_eq_true, decide_eq_true_iff, Bool.not_eq_true', ← Bool.not_eq_true, not_or, ne_eq]

/-- A channel that a record names, with table id, index, and the kind it must be of. -/
def Named.ofTuple (n : Nat × Nat × ChannelNo × Kind) : Named := ⟨n.1, n.2.1, n.2.2.1, n.2.2.2⟩

/-- The channel of a field that may be none, as the statement writes it. -/
def maybeTuple (table index : Nat) (x : Option ChannelNo) (k : Kind) : List (Nat × Nat × ChannelNo × Kind) :=
  match x with
  | none => []
  | some x => [(table, index, x, k)]

theorem Named.maybe_eq (table index : Nat) (k : Kind) (x : Option ChannelNo) :
    Named.maybe table index k x = (maybeTuple table index x k).map Named.ofTuple := by
  cases x <;> rfl

/-- Every channel named by a record in effect, as numbers, in the order of tests 6 and 7 (R56, Table 4-5). -/
def namedTuples (s : State) : List (Nat × Nat × ChannelNo × Kind) :=
  ((List.finRange 16).flatMap fun i =>
    let w := s.wsv.wells[i].cfg
    if w.role = .unused then [] else [(2, i.val, w.flow, .flow), (2, i.val, w.intake, .press)] ++ maybeTuple 2 i.val w.motor .state)
  ++ maybeTuple 8 0 s.wsv.plant.brine .flow ++ maybeTuple 8 0 s.wsv.plant.steam .flow
  ++ [(7, 0, s.tgd.cfg.speed, .speed), (7, 0, s.tgd.cfg.lube, .press), (7, 0, s.tgd.cfg.gear, .state),
    (7, 0, s.tgd.cfg.purity, .purity)]
  ++ maybeTuple 7 0 s.tgd.cfg.field .state
  ++ (let h := s.hxu.cfg
    if h.enable then [(6, 0, h.outdoor, .temp), (6, 0, h.districtReturn, .temp), (6, 0, h.districtSupply, .temp),
      (6, 0, h.districtFlow, .flow), (6, 0, h.brineInlet, .temp), (6, 0, h.brineOutlet, .temp), (6, 0, h.brineFlow, .flow)] else [])
  ++ ((List.finRange 8).flatMap fun i =>
    let p := s.scm.points[i].cfg
    if p.inUse then (4, i.val, p.temp, .temp) :: (if p.lab then [] else maybeTuple 4 i.val p.silica .conc) else [])

theorem namedChannels_eq (s : State) : namedChannels s = (namedTuples s).map Named.ofTuple := by
  have hwell : ∀ i : WellNo, s.wsv.wells[i].cfg.named i.val = List.map Named.ofTuple
      (let w := s.wsv.wells[i].cfg
      if w.role = .unused then [] else
        [(2, i.val, w.flow, .flow), (2, i.val, w.intake, .press)] ++ maybeTuple 2 i.val w.motor .state) := fun i => by
    simp only [WellRecord.named, WellRecord.inRole, decide_eq_true_iff, ne_eq, ite_not, apply_ite (List.map Named.ofTuple),
      List.map_append, ← Named.maybe_eq]
    rfl
  have hpoint : ∀ i : PointNo, s.scm.points[i].cfg.named i.val = List.map Named.ofTuple
      (let p := s.scm.points[i].cfg
      if p.inUse then (4, i.val, p.temp, .temp) :: (if p.lab then [] else maybeTuple 4 i.val p.silica .conc) else []) := fun i => by
    simp only [PointRecord.named, apply_ite (List.map Named.ofTuple), List.map_cons, ← Named.maybe_eq]
    rfl
  simp only [namedChannels, namedTuples, List.map_append, List.map_flatMap, hwell, hpoint, PlantRecord.named, TurbineRecord.named,
    HeatingRecord.named, apply_ite (List.map Named.ofTuple), ← Named.maybe_eq, List.append_assoc]
  rfl

/-- Test 6: a named channel that is not in use. -/
theorem checkChannelsUsed_findsFirst (s : State) : FindsFirst (checkChannelsUsed s)
    ((namedTuples s).flatMap fun n => if s.acq.chans[n.2.2.1].cfg.inUse then [] else [[6, n.1, n.2.1, 3, n.2.2.1.val]]) := by
  rw [checkChannelsUsed, namedChannels_eq, firstFailure_map]
  refine .flatMap (fun n => ?_) _
  exact .ite Iff.rfl .nil (.single 6 n.1 n.2.1 3 n.2.2.1)

/-- Test 7: a named channel of another kind. -/
theorem checkChannelKinds_findsFirst (s : State) : FindsFirst (checkChannelKinds s)
    ((namedTuples s).flatMap fun n => if s.acq.chans[n.2.2.1].cfg.kind = n.2.2.2 then []
      else [[7, n.1, n.2.1, 4, n.2.2.1.val]]) := by
  rw [checkChannelKinds, namedChannels_eq, firstFailure_map]
  refine .flatMap (fun n => ?_) _
  exact .ite Iff.rfl .nil (.single 7 n.1 n.2.1 4 n.2.2.1)

/-- The scaling points named by reinjection wells and by HEATING while enabled, as numbers (R56). -/
def pointTuples (s : State) : List (Nat × Nat × PointNo) :=
  ((List.finRange 16).flatMap fun i => match s.wsv.wells[i].cfg.role, s.wsv.wells[i].cfg.point with
    | .reinjection, some p => [(2, i.val, p)]
    | _, _ => [])
  ++ (match s.hxu.cfg.enable, s.hxu.cfg.floorPoint with
    | true, some p => [(6, 0, p)]
    | _, _ => [])

theorem namedPoints_eq (s : State) :
    namedPoints s = (pointTuples s).map fun n => ((n.1 : Int), (n.2.1 : Int), n.2.2) := by
  have hwell : ∀ (role : Role) (i : Nat) (p : Option PointNo),
      (if role = .reinjection then p.map fun p => ((2 : Int), (i : Int), p) else none).toList =
        List.map (fun n : Nat × Nat × PointNo => ((n.1 : Int), (n.2.1 : Int), n.2.2)) (match role, p with
          | .reinjection, some p => [(2, i, p)]
          | _, _ => []) := fun role i p => by
    cases role <;> cases p <;> rfl
  have hheat : ∀ (enable : Bool) (p : Option PointNo),
      (if enable then p.toList.map fun p => ((6 : Int), (0 : Int), p) else []) =
        List.map (fun n : Nat × Nat × PointNo => ((n.1 : Int), (n.2.1 : Int), n.2.2)) (match enable, p with
          | true, some p => [(6, 0, p)]
          | _, _ => []) := fun enable p => by
    cases enable <;> cases p <;> rfl
  rw [namedPoints, pointTuples, List.filterMap_eq_flatMap_toList, hheat, List.map_append, List.map_flatMap]
  exact congrArg (· ++ _) (List.flatMap_congr fun i _ => hwell _ i _)

/-- Test 8: a named point that is not in use. -/
theorem checkPointsUsed_findsFirst (s : State) : FindsFirst (checkPointsUsed s)
    ((pointTuples s).flatMap fun n => if s.scm.points[n.2.2].cfg.inUse then [] else [[8, n.1, n.2.1, 9, n.2.2.val]]) := by
  rw [checkPointsUsed, namedPoints_eq, firstFailure_map]
  refine .flatMap (fun n => ?_) _
  exact .ite Iff.rfl .nil (.single 8 n.1 n.2.1 9 n.2.2)

/-- Test 9: a point in use whose curve holds fewer than 2 points. -/
theorem checkSolubilityCurves_findsFirst (s : State) : FindsFirst (checkSolubilityCurves s)
    ((List.finRange 8).flatMap fun i =>
      if s.scm.points[i].cfg.inUse = true ∧ s.scm.curves[s.scm.points[i].cfg.curve].length < 2 then
        [[9, 4, i.val, 7, s.scm.points[i].cfg.curve.val]] else []) := by
  refine .flatMap (fun i => ?_) _
  exact .ite Iff.rfl (.single 9 4 i 7 s.scm.points[i].cfg.curve) .nil

/-- Test 10: a heating curve with fewer than 2 points while HEATING is enabled. -/
theorem checkHeatCurve_findsFirst (s : State) : FindsFirst (checkHeatCurve s)
    (if s.hxu.cfg.enable = true ∧ s.hxu.curve.length < 2 then [[10, 5, 0, 8, 255]] else []) :=
  .ite Iff.rfl (.single 10 5 0 8 255) .nil

theorem consistency_eq (s : State) : consistency s =
    (((((((((checkChannelPositions s).or (checkOutputPositions s)).or (checkOutputSources s)).or (checkOutputWells s)).or
      (checkWellOutputs s)).or (checkChannelsUsed s)).or (checkChannelKinds s)).or (checkPointsUsed s)).or
      (checkSolubilityCurves s)).or (checkHeatCurve s) := by
  simp only [consistency, firstFailure_cons, Option.or_assoc]
  simp [firstFailure]

/-- The check reads what a frame heard leaves unchanged (R67). -/
theorem consistency_hears (s : State) : consistency s.hears = consistency s := rfl

/-! ## The entry into LEAVING (R59, R88) -/

/-- The well after it has left START_PENDING for STOPPED, with its demands at 0 (R74, R88). -/
def Well.stoppedPending (w : Well) : Well :=
  { w with state := some .stopped, intakeCount := 0, flowBlind := false, intakeBlind := false, motorBlind := false,
           startTimer := none, runDemand := 0, speedDemand := 0 }

/-- A START_PENDING well returns to STOPPED with the queue as it is; `clearQueue_unqueueWell` ties it to the model. -/
def stopPending (s : State) (i : WellNo) : State :=
  if s.wsv.wells[i].state = some .startPending then
    raise .wellStopped i.val 1 (deliver (.wellSpeed i) 0 (deliver (.wellRun i) 0
      { s with wsv := { s.wsv with wells := s.wsv.wells.set i s.wsv.wells[i].stoppedPending } }))
  else s

/-- The start queue emptied. -/
def clearQueue (s : State) : State := { s with wsv := { s.wsv with queue := [] } }

/-- A stopped well is given demands of 0. -/
theorem deliverWell_leave_stopped (i : WellNo) (s : State) : deliverWell i (s.setWell i ((s.well i).leave .stopped)) =
    deliver (.wellSpeed i) 0 (deliver (.wellRun i) 0
      { s with wsv := { s.wsv with wells := s.wsv.wells.set i s.wsv.wells[i].stoppedPending } }) := by
  simp [deliverWell, Wsv.runDemand, Wsv.speedDemand, State.setWell, State.well, Well.leave, Well.stoppedPending]

theorem clearQueue_unqueueWell (s : State) (i : WellNo) : clearQueue (unqueueWell s i) = stopPending (clearQueue s) i := by
  rw [unqueueWell, apply_ite clearQueue, stopWell, deliverWell_leave_stopped]
  rfl

theorem clearQueue_stopPending (s : State) (i : WellNo) : clearQueue (stopPending s i) = stopPending (clearQueue s) i := by
  rw [stopPending, apply_ite clearQueue]
  rfl

/-- The queue has no part in what the wells do as it is emptied. -/
theorem emptyStartQueue_eq (s : State) : emptyStartQueue s = clearQueue ((List.finRange 16).foldl stopPending s) :=
  calc emptyStartQueue s = clearQueue ((List.finRange 16).foldl unqueueWell s) := rfl
    _ = (List.finRange 16).foldl stopPending (clearQueue s) :=
      (List.foldl_hom clearQueue fun t i => (clearQueue_unqueueWell t i).symm).symm
    _ = clearQueue ((List.finRange 16).foldl stopPending s) :=
      List.foldl_hom clearQueue fun t i => (clearQueue_stopPending t i).symm

/-! ## SET_MODE (R54, Table 4-3) -/

theorem setMode_checksLength : ChecksLength 1 setMode := fun p s h => by
  unfold setMode
  split <;> [exact absurd rfl h; rfl]

theorem setMode_badValue {m : Byte} (s : State) (h : 2 < m.toNat) : setMode [m] s = refuse .badValue s := by
  have h0 : m ≠ 0 := by bv_omega
  have h1 : m ≠ 1 := by bv_omega
  have h2 : m ≠ 2 := by bv_omega
  simp only [setMode, if_neg h0, if_neg h1, if_neg h2]

/-- The reply of SET_MODE carries the mode of the state it leaves (R54). -/
theorem modeAnswer_eq {s : State} {m : Mode} (st : Status) (h : s.mbc.mode = m) : modeAnswer st s = answer st (put8 m.code) s := by
  rw [modeAnswer, h]

/-- SET_MODE with target CONFIG (Table 4-3, R60). -/
theorem setConfig_eq (s : State) : setConfig s = match s.mbc.mode with
    | .config => answer .already [0x00#8] s
    | .standby => answer .ok [0x00#8] (raise .bankMode 0 0 (runtimeReset s))
    | .supervise => answer .wrongMode [0x02#8] s
    | .leaving => answer .wrongMode [0x03#8] s := by
  unfold setConfig
  cases h : s.mbc.mode with
  | config => exact modeAnswer_eq .already h
  | standby => rfl
  | supervise => exact modeAnswer_eq .wrongMode h
  | leaving => exact modeAnswer_eq .wrongMode h

/-- SET_MODE with target SUPERVISE (Table 4-3, R58). -/
theorem setSupervise_eq (s : State) : setSupervise s = match s.mbc.mode with
    | .config => answer .wrongMode [0x00#8] s
    | .standby =>
      if s.lif.rx = .locked then answer .ok [0x02#8] (raise .bankMode 0 2 { s with mbc := { s.mbc with mode := .supervise } })
      else answer .wrongState [0x01#8] s
    | .supervise => answer .already [0x02#8] s
    | .leaving => answer .wrongMode [0x03#8] s := by
  unfold setSupervise
  cases h : s.mbc.mode with
  | config => exact modeAnswer_eq .wrongMode h
  | standby => exact congrArg (ite _ _) (modeAnswer_eq .wrongState h)
  | supervise => exact modeAnswer_eq .already h
  | leaving => exact modeAnswer_eq .wrongMode h

theorem enterLeaving_mode (s : State) : (enterLeaving s).mbc.mode = .leaving := by
  have hkept : ∀ t : State, (emptyStartQueue t).mbc = t.mbc := fun t => (emptyStartQueue_frame t).same .mbc (by decide)
  obtain h | h := eitherOrder_cases (raise .bankMode 0 Mode.leaving.code) emptyStartQueue
    { s with mbc := { s.mbc with mode := .leaving } }
  · rw [enterLeaving, h, hkept, raise_mbc]
  · rw [enterLeaving, h, raise_mbc, hkept]

/-- SET_MODE with target STANDBY outside CONFIG (Table 4-3, R59). -/
theorem setStandby_eq {s : State} (hm : s.mbc.mode ≠ .config) : setStandby s = match s.mbc.mode with
    | .supervise => answer .ok [0x03#8] (enterLeaving s)
    | .leaving => answer .already [0x03#8] s
    | _ => answer .already [0x01#8] s := by
  unfold setStandby
  cases h : s.mbc.mode with
  | config => exact absurd h hm
  | standby => exact modeAnswer_eq .already h
  | supervise => exact modeAnswer_eq .ok (enterLeaving_mode s)
  | leaving => exact modeAnswer_eq .already h

section leaveConfig

variable {s : State} (hm : s.mbc.mode = .config)
include hm

theorem setStandby_inconsistent {f : Failure} (h : consistency s = some f) :
    setStandby s = answer .badConfig (0x00#8 :: f.bytes) s := by
  simp only [setStandby, hm, h]
  rfl

theorem setStandby_consistent (h : consistency s = none) : setStandby s = answer .ok [0x01#8] (leaveConfig s) := by
  simp only [setStandby, hm, h]
  rfl

end leaveConfig

/-- LIF leaves OFF for the search at code 3, or for the hunt at the rate of its record (R4, R7, R19). -/
theorem Lif.start_eq (l : Lif) (now : Time) : l.start now =
    let k : Lif := { l with selected := l.cfg.rate }
    let rx : Lif := if l.cfg.autoRate then
        { k with rx := .search, trial := some 3, hunt := none, dwell := some ⟨now, 6 * 960⟩, ended := false, candidate := none,
                 huntFrom := 0 }
      else k.hunting now
    { rx with blindTimer := some (k.blindFrom now), tx := { l.tx with timer := some ⟨now, 0⟩, next := none } } := by
  simp only [Lif.start, Lif.enterHunt_eq, Lif.startBlind_eq]
  cases l.cfg.autoRate <;> rfl

/-- Settles O29: the request by its checks and Table 4-3, the consistency check test by test, and the entry into LEAVING. -/
theorem modeSet : Obligations.ModeSet := by
  intro r s c ready hc chan out well point heat turb maybe named points carried failures emptied
  have row : exec c s = live s (goodFrame 0x03 setMode r) := by rcases hc with rfl | rfl | rfl <;> rfl
  have hmode : s.hears.mbc.mode = s.mbc.mode := rfl
  refine ⟨exec_badLength ready row setMode_checksLength, fun m hp hm => exec_replied ready row (hp ▸ setMode_badValue _ hm),
    fun hp => ?config, fun hp hm => ?leaveConfig, fun hp hm => ?standby, fun hp => ?supervise, ?leaving⟩
  case config =>
    have htarget : setMode r.payload s.hears = setConfig s.hears := by rw [hp]; rfl
    rw [exec_request ready row, htarget, setConfig_eq, hmode]
    cases s.mbc.mode <;> rfl
  case standby =>
    have htarget : setMode r.payload s.hears = setStandby s.hears := by rw [hp]; rfl
    rw [exec_request ready row, htarget, setStandby_eq (s := s.hears) hm, hmode]
    cases s.mbc.mode <;> rfl
  case supervise =>
    have htarget : setMode r.payload s.hears = setSupervise s.hears := by rw [hp]; rfl
    rw [exec_request ready row, htarget, setSupervise_eq, hmode]
    cases s.mbc.mode with
    | standby => exact congrArg _ (apply_ite (fillBuffer 0x03 r) _ _ _)
    | config | supervise | leaving => rfl
  case leaveConfig =>
    have htarget : setMode r.payload s.hears = setStandby s.hears := by rw [hp]; rfl
    have hcarried : ∀ x, carried x = s.out.carries x := fun x => (s.out.carries_eq x).symm
    have hfinds : FindsFirst (consistency s.hears) failures := by
      simp only [failures, hcarried]
      rw [consistency_hears, consistency_eq, checkChannelPositions_eq, checkOutputPositions_eq, checkOutputSources_eq]
      refine .append (.append (.append (.append (.append (.append (.append (.append (.append ?_ ?_) ?_) ?_) ?_) ?_) ?_) ?_) ?_) ?_
      · exact clashCheck_findsFirst chan ChannelRecord.pos s.acq.used_fin 1 0 1
      · exact clashCheck_findsFirst out OutputRecord.pos s.out.used_fin 2 1 1
      · exact clashCheck_findsFirst out OutputRecord.source s.out.used_fin 3 1 2
      · exact checkOutputWells_findsFirst s
      · exact checkWellOutputs_findsFirst s
      · exact checkChannelsUsed_findsFirst s
      · exact checkChannelKinds_findsFirst s
      · exact checkPointsUsed_findsFirst s
      · exact checkSolubilityCurves_findsFirst s
      · exact checkHeatCurve_findsFirst s
    clear_value failures
    refine ⟨fun f more hf => ?inconsistent, fun hf => ?consistent⟩
    case inconsistent =>
      subst hf
      obtain ⟨found, hfound, hbytes⟩ : ∃ found, consistency s.hears = some found ∧ found.bytes = f.map (BitVec.ofNat 8) :=
        Option.map_eq_some_iff.mp hfinds
      rw [← hbytes]
      exact exec_replied ready row (htarget.trans (setStandby_inconsistent (s := s.hears) hm hfound))
    case consistent =>
      subst hf
      have hnone : consistency s.hears = none := Option.map_eq_none_iff.mp hfinds
      intro l rx
      have hstart : s.lif.start s.now =
          { rx with blindTimer := some (l.blindFrom s.now), tx := { s.lif.tx with timer := some ⟨s.now, 0⟩, next := none } } :=
        s.lif.start_eq s.now
      rw [exec_replied ready row (htarget.trans (setStandby_consistent (s := s.hears) hm hnone)), ← hstart]
      rfl
  case leaving =>
    refine ⟨_, rfl, ?_⟩
    have hemptied : ∀ t, emptied t = emptyStartQueue t := fun t => by
      rw [emptyStartQueue_eq]
      simp only [emptied]
      generalize List.finRange 16 = l
      rfl
    rw [hemptied, hemptied]
    exact eitherOrder_cases (raise .bankMode 0 Mode.leaving.code) emptyStartQueue _

end Sys2Proof.Machine

/-! PROOFS. WSV: the moves that the well supervisor makes, the start queue and the slot, the production ceiling, the well
commands, the arbiter, the tests of a snapshot (R73 to R96, R107). -/

namespace Sys2Proof.Machine

/-! ## The moves of the well supervisor -/

/-- The well neither waits in the start queue nor holds the slot. -/
def WellState.AtRest (st : Option WellState) : Prop := st ≠ some .startPending ∧ st ≠ some .starting

theorem WellState.AtRest.of_eq {o : Option WellState} {st : WellState} (h : o = some st) (hst : WellState.AtRest (some st)) :
    WellState.AtRest o := h ▸ hst

/-- What one operation does to the supervisor's record in a mode, apart from the PLANT record, the ceiling and the view: the operations
of WSV are runs of these, with demands and events in between (`WellRun`). -/
inductive Wsv.Move (m : Mode) (v : Wsv) : Wsv → Prop where
  /-- A well changes and stays in its state. -/
  | edit (i : WellNo) (w : Well) (same : w.state = v.wells[i].state) : Move m v { v with wells := v.wells.set i w }
  /-- A well goes from one state outside the start to another. -/
  | settle (i : WellNo) (w : Well) (before : WellState.AtRest v.wells[i].state) (after : WellState.AtRest w.state) :
      Move m v { v with wells := v.wells.set i w }
  /-- In CONFIG a WELL record gives the well the state of its role (R75). -/
  | role (i : WellNo) (w : Well) (config : m = .config) (after : WellState.AtRest w.state) :
      Move m v { v with wells := v.wells.set i w }
  /-- A well joins the queue (R81, R85). -/
  | join (i : WellNo) (w : Well) (q : List WellNo) (before : WellState.AtRest v.wells[i].state)
      (after : w.state = some .startPending) (place : q.Perm (i :: v.queue)) (mode : m ≠ .config) :
      Move m v { v with queue := q, wells := v.wells.set i w }
  /-- A well leaves the queue without a start (R82, R88). -/
  | leave (i : WellNo) (w : Well) (before : v.wells[i].state ≠ some .starting) (after : WellState.AtRest w.state) :
      Move m v { v with queue := v.queue.erase i, wells := v.wells.set i w }
  /-- A queued well is granted the slot (R86). -/
  | grant (i : WellNo) (w : Well) (queued : i ∈ v.queue) (free : v.slot = none) (after : w.state = some .starting)
      (mode : m ≠ .config) : Move m v { v with queue := v.queue.erase i, slot := some i, wells := v.wells.set i w }
  /-- The STARTING well releases the slot (R87). -/
  | release (i : WellNo) (w : Well) (q : List WellNo) (x : Option Timer) (before : v.wells[i].state = some .starting)
      (after : WellState.AtRest w.state) (queue : q = v.queue ∨ q = v.queue.erase i) :
      Move m v { v with queue := q, slot := none, stagger := x, wells := v.wells.set i w }
  /-- The queue is emptied when no well waits (R88). -/
  | empty (none : ∀ i : WellNo, v.wells[i].state ≠ some .startPending) : Move m v { v with queue := [] }
  /-- The stagger timer (R87). -/
  | stagger (x : Option Timer) : Move m v { v with stagger := x }
  /-- The reinjection balance (R94, R95). -/
  | balance (r : BalanceResult) (deficit : Bool) (capacity threshold : Int) (mark : Bool) :
      Move m v { v with result := r, deficit := deficit, capacity := capacity, threshold := threshold, brineMark := mark }

/-- No move touches the PLANT record, the ceiling or the view. -/
theorem Wsv.Move.kept {m : Mode} {v u : Wsv} (h : v.Move m u) :
    u.plant = v.plant ∧ u.ceiling = v.ceiling ∧ u.view = v.view := by
  cases h <;> exact ⟨rfl, rfl, rfl⟩

/-- A run of moves, with demands and events in between. -/
structure WellRun (s t : State) : Prop where
  frame : Frame wellParts s t
  moves : Relation.ReflTransGen (Wsv.Move s.mbc.mode) s.wsv t.wsv

namespace WellRun

variable {s t u : State}

theorem mbc (h : WellRun s t) : t.mbc = s.mbc := h.frame.same .mbc (by decide)

theorem refl (s : State) : WellRun s s := ⟨.refl _ s, .refl⟩

theorem trans (h : WellRun s t) (k : WellRun t u) : WellRun s u :=
  ⟨h.frame.trans k.frame, h.moves.trans (h.mbc ▸ k.moves)⟩

theorem move {v : Wsv} (h : s.wsv.Move s.mbc.mode v) : WellRun s { s with wsv := v } := ⟨wsv_frame v s, .single h⟩

theorem raise (k : EventKind) (a b : Int) (h : WellRun s t) : WellRun s (raise k a b t) :=
  h.trans ⟨raise_wells k a b t, .refl⟩

theorem raiseIf (c : Bool) (k : EventKind) (a b : Int) (h : WellRun s t) : WellRun s (raiseIf c k a b t) := by
  unfold Machine.raiseIf
  split
  · exact h.raise k a b
  · exact h

theorem deliver (src : Source) (v : Int) (h : WellRun s t) : WellRun s (deliver src v t) :=
  h.trans ⟨(deliver_frame src v t).mono (by decide), .refl⟩

theorem foldl {α : Type} {f : State → α → State} (hf : ∀ s a, WellRun s (f s a)) (l : List α) (s : State) :
    WellRun s (l.foldl f s) :=
  List.foldlRecOn l f (.refl s) fun _ ht a _ => ht.trans (hf _ a)

theorem kept (h : WellRun s t) :
    t.wsv.plant = s.wsv.plant ∧ t.wsv.ceiling = s.wsv.ceiling ∧ t.wsv.view = s.wsv.view := by
  obtain ⟨-, moves⟩ := h
  generalize t.wsv = v at moves ⊢
  induction moves with
  | refl => exact ⟨rfl, rfl, rfl⟩
  | tail _ last ih =>
    obtain ⟨plant, ceiling, view⟩ := ih
    obtain ⟨plant', ceiling', view'⟩ := last.kept
    exact ⟨plant'.trans plant, ceiling'.trans ceiling, view'.trans view⟩

end WellRun

/-! ## A well of the supervisor, after a change -/

section wells

variable (ws : Vector Well 16) (i : WellNo) (w : Well)

@[simp] theorem wells_set_self : (ws.set i w)[i] = w := by simp

theorem wells_set_other {j : WellNo} (h : j ≠ i) : (ws.set i w)[j] = ws[j] := by
  have hval : i.val ≠ j.val := fun e => h (Fin.ext e.symm)
  simp [hval]

end wells

@[simp] theorem setWell_well (s : State) (i : WellNo) (w : Well) : (s.setWell i w).well i = w := wells_set_self _ i w

theorem setWell_well_other (s : State) {i j : WellNo} (w : Well) (h : j ≠ i) : (s.setWell i w).well j = s.well j :=
  wells_set_other _ i w h

@[simp] theorem raise_well (k : EventKind) (a b : Int) (s : State) (i : WellNo) : (raise k a b s).well i = s.well i := rfl

@[simp] theorem deliverWell_state (i j : WellNo) (s : State) : ((deliverWell i s).well j).state = (s.well j).state := by
  show ((s.setWell i { s.well i with runDemand := _, speedDemand := _ }).well j).state = _
  by_cases h : j = i
  · subst h
    simp
  · rw [setWell_well_other s _ h]

/-! ## The runs of WSV's operations -/

section runs

variable (i : WellNo) (s : State)

theorem setWell_run {w : Well} (same : w.state = (s.well i).state) : WellRun s (s.setWell i w) := .move (.edit i w same)

theorem settle_run {w : Well} (before : WellState.AtRest (s.well i).state) (after : WellState.AtRest w.state) :
    WellRun s (s.setWell i w) := .move (.settle i w before after)

theorem deliverWell_run : WellRun s (deliverWell i s) := by
  unfold deliverWell
  exact ((setWell_run i s (by rfl)).deliver _ _).deliver _ _

theorem grant_run {i : WellNo} {s : State} (queued : i ∈ s.wsv.queue) (free : s.wsv.slot = none) (mode : s.mbc.mode ≠ .config) :
    WellRun s (grant i s) := by
  unfold grant
  exact (WellRun.trans (.move (.grant i { s.well i with
    state := some .starting, startTimer := some (s.timerMs (s.well i).cfg.startMs) } queued free rfl mode))
    (deliverWell_run i _)).raise _ _ _

theorem arbiter_run : WellRun s (arbiter s) := by
  unfold arbiter
  split
  · next acts =>
    obtain ⟨mode, free, -⟩ := acts
    split
    · exact .refl s
    · next i found => exact grant_run (List.mem_of_find?_eq_some found) free (by rw [mode]; nofun)
  · exact .refl s

/-- A trip of a well that is STARTING or RUNNING. -/
theorem tripWell_run (c : TripCause) {i : WellNo} {s : State}
    (h : (s.well i).state = some .starting ∨ (s.well i).state = some .running) : WellRun s (tripWell c i s) := by
  have after (locked : Bool) : WellState.AtRest (some (if locked then .lockedOut else .tripped)) := by
    cases locked <;> exact ⟨nofun, nofun⟩
  unfold tripWell
  refine WellRun.trans (WellRun.raise _ _ _ ?_) (deliverWell_run i _)
  rcases h with h | h
  · rw [if_pos h]
    exact .move (.release i _ s.wsv.queue _ h (after _) (.inl rfl))
  · rw [if_neg (by rw [h]; nofun)]
    exact settle_run i s (.of_eq h ⟨nofun, nofun⟩) (after _)

section noteBlind

variable {put : Bool → Well → Well} (same : ∀ b w, (put b w).state = w.state) (k : EventKind) (r : Reading) (marked : Bool)
include same

theorem noteBlind_run : WellRun s (noteBlind k i r marked put s) := by
  unfold noteBlind
  repeat' split
  · exact setWell_run i s (same _ _)
  · exact .refl s
  · exact (setWell_run i s (same _ _)).raise _ _ _

theorem noteBlind_state : ((noteBlind k i r marked put s).well i).state = (s.well i).state := by
  unfold noteBlind
  repeat' split
  · rw [setWell_well, same]
  · rfl
  · rw [raise_well, setWell_well, same]

end noteBlind

theorem noteFlow_run : WellRun s (noteFlow i s) := noteBlind_run i s (by exact fun _ _ => rfl) _ _ _

theorem noteIntake_run : WellRun s (noteIntake i s) := noteBlind_run i s (by exact fun _ _ => rfl) _ _ _

theorem noteMotor_run : WellRun s (noteMotor i s) := by
  unfold noteMotor
  split
  · exact .refl s
  · exact noteBlind_run i s (by exact fun _ _ => rfl) _ _ _

@[simp] theorem noteFlow_state : ((noteFlow i s).well i).state = (s.well i).state :=
  noteBlind_state i s (by exact fun _ _ => rfl) _ _ _

@[simp] theorem noteIntake_state : ((noteIntake i s).well i).state = (s.well i).state :=
  noteBlind_state i s (by exact fun _ _ => rfl) _ _ _

@[simp] theorem noteMotor_state : ((noteMotor i s).well i).state = (s.well i).state := by
  unfold noteMotor
  split
  · rfl
  · exact noteBlind_state i s (by exact fun _ _ => rfl) _ _ _

variable {i s}

theorem startRunning_run (h : (s.well i).state = some .starting) : WellRun s (startRunning i s) := by
  unfold startRunning
  exact WellRun.raise _ _ _ (.move (.release i _ s.wsv.queue _ h ⟨nofun, nofun⟩ (.inl rfl)))

theorem testStarting_run (h : (s.well i).state = some .starting) : WellRun s (testStarting i s) := by
  have hmotor : ((noteMotor i s).well i).state = some .starting := (noteMotor_state i s).trans h
  unfold testStarting
  refine (noteMotor_run i s).trans ?_
  generalize noteMotor i s = t at hmotor ⊢
  dsimp only
  split
  · exact tripWell_run _ (.inl hmotor)
  · refine (noteFlow_run i t).trans ?_
    split
    · exact startRunning_run ((noteFlow_state i t).trans hmotor)
    · exact .refl _

theorem testRunning_run (h : (s.well i).state = some .running) : WellRun s (testRunning i s) := by
  have hmotor : ((noteMotor i s).well i).state = some .running := (noteMotor_state i s).trans h
  unfold testRunning
  refine (noteMotor_run i s).trans ?_
  generalize noteMotor i s = t at hmotor ⊢
  dsimp only
  split
  · exact tripWell_run _ (.inr hmotor)
  · have hread : ((noteIntake i (noteFlow i t)).well i).state = some .running := by simpa using hmotor
    refine ((noteFlow_run i t).trans (noteIntake_run i _)).trans ?_
    generalize noteIntake i (noteFlow i t) = u at hread ⊢
    refine (setWell_run i u (w := { u.well i with intakeCount := u.wsv.intakeNext i }) rfl).trans ?_
    split
    · exact tripWell_run _ (.inr (by simpa using hread))
    · exact .refl _

variable (i s)

theorem processWell_run : WellRun s (processWell s i) := by
  unfold processWell
  split
  · exact .refl s
  · next h => exact (testStarting_run h).trans (deliverWell_run i _)
  · next h => exact (testRunning_run h).trans (deliverWell_run i _)
  · exact deliverWell_run i s

theorem wsvWells_run : WellRun s (wsvWells s) := .foldl (fun s i => processWell_run i s) _ s

theorem frozenWell_run : WellRun s (frozenWell s i) := by
  unfold frozenWell
  split
  · exact deliverWell_run i s
  · exact .refl s

theorem wsvGrant_run (before : Option WellNo) : WellRun s (wsvGrant before s) := by
  unfold wsvGrant
  split
  · exact arbiter_run s
  · exact .refl s

theorem wsvBalance_run : WellRun s (wsvBalance s) := by
  unfold wsvBalance
  split
  · exact .move (.balance .notComputed s.wsv.deficit s.wsv.capacity s.wsv.threshold s.wsv.brineMark)
  · dsimp only [takeResult, takeHeld]
    split
    · exact (WellRun.raiseIf _ _ _ _ (.move (.balance _ _ _ _ false))).raiseIf _ _ _ _
    · exact WellRun.raiseIf _ _ _ _ (.move (.balance .held s.wsv.deficit _ _ true))

theorem stopWell_run (why : Int) (h : (s.well i).state ≠ some .starting) : WellRun s (stopWell why i s) := by
  unfold stopWell
  exact (WellRun.trans (.move (.leave i ((s.well i).leave .stopped) h ⟨nofun, nofun⟩)) (deliverWell_run i _)).raise _ _ _

/-- STOP of the STARTING well releases the slot (R82, R87). -/
theorem stopStarting_run (h : (s.well i).state = some .starting) : WellRun s (stopWell 0 i (releaseSlot s)) := by
  unfold stopWell
  exact (WellRun.trans (.move (.release i ((s.well i).leave .stopped) (s.wsv.queue.erase i) _ h ⟨nofun, nofun⟩ (.inr rfl)))
    (deliverWell_run i _)).raise _ _ _

theorem unqueueWell_run : WellRun s (unqueueWell s i) := by
  unfold unqueueWell
  split
  · next h => exact stopWell_run i s 1 (by rw [h]; nofun)
  · exact .refl s

/-- The state of every well after one has been taken out of the queue. -/
theorem unqueueWell_state (j : WellNo) : ((unqueueWell s i).well j).state =
    if j = i ∧ (s.well i).state = some .startPending then some .stopped else (s.well j).state := by
  unfold unqueueWell stopWell
  by_cases hi : (s.well i).state = some .startPending
  · rw [if_pos hi, raise_well, deliverWell_state]
    by_cases hj : j = i
    · subst hj
      rw [setWell_well, if_pos ⟨rfl, hi⟩]
      rfl
    · rw [setWell_well_other _ _ hj, if_neg (hj ·.1)]
      rfl
  · rw [if_neg hi, if_neg (hi ·.2)]

/-- No well that has been taken up waits any more. -/
theorem unqueueWells_state (l : List WellNo) (j : WellNo) (h : j ∈ l ∨ (s.well j).state ≠ some .startPending) :
    ((l.foldl unqueueWell s).well j).state ≠ some .startPending := by
  induction l generalizing s with
  | nil => exact h.resolve_left List.not_mem_nil
  | cons i l ih =>
    refine ih _ ?_
    rw [unqueueWell_state]
    split
    · exact .inr nofun
    · next kept =>
      rcases h with h | h
      · rcases List.mem_cons.mp h with rfl | h
        · exact .inr (fun hj => kept ⟨rfl, hj⟩)
        · exact .inl h
      · exact .inr h

theorem emptyStartQueue_run : WellRun s (emptyStartQueue s) := by
  have hnone (j : WellNo) : (((List.finRange 16).foldl unqueueWell s).well j).state ≠ some .startPending :=
    unqueueWells_state s _ j (.inl (List.mem_finRange j))
  unfold emptyStartQueue
  refine (WellRun.foldl (fun s i => unqueueWell_run i s) (List.finRange 16) s).trans ?_
  generalize (List.finRange 16).foldl unqueueWell s = t at hnone ⊢
  exact .move (.empty hnone)

/-- The joined queue is the queue with the well in it (R85). -/
theorem join_perm (v : Wsv) : (v.join i).Perm (i :: v.queue) := by
  unfold Wsv.join
  split
  · rw [List.append_assoc, List.singleton_append]
    refine List.perm_middle.trans (.cons i ?_)
    rw [List.takeWhile_append_dropWhile]
  · exact List.perm_append_singleton i v.queue

theorem wellStart_run (mode : s.mbc.mode ≠ .config) : WellRun s (wellStart i s).2 := by
  unfold wellStart
  split
  · next h =>
    exact (WellRun.raise _ _ _ (.move (.join i { s.well i with state := some .startPending } (s.wsv.join i)
      (.of_eq h ⟨nofun, nofun⟩) rfl
      (join_perm i s.wsv) mode))).trans (arbiter_run _)
  all_goals exact .refl s

theorem wellStop_run : WellRun s (wellStop i s).2 := by
  unfold wellStop
  split
  · next h => exact stopWell_run i s 0 (by rw [h]; nofun)
  · next h => exact (stopStarting_run i s h).trans (arbiter_run _)
  · next h => exact stopWell_run i s 0 (by rw [h]; nofun)
  · exact .refl s

theorem wellClear_run : WellRun s (wellClear i s).2 := by
  unfold wellClear
  split
  · next h => exact (settle_run i s (.of_eq h ⟨nofun, nofun⟩) ⟨by nofun, by nofun⟩).raise _ _ _
  · next h => exact (settle_run i s (.of_eq h ⟨nofun, nofun⟩) ⟨by nofun, by nofun⟩).raise _ _ _
  · exact .refl s

theorem wellServiceOut_run : WellRun s (wellServiceOut i s).2 := by
  have out (h : WellState.AtRest (s.well i).state) :
      WellRun s (raise .wellService i.val 0 (s.setWell i { s.well i with state := some .outOfService })) :=
    (settle_run i s h ⟨by nofun, by nofun⟩).raise _ _ _
  unfold wellServiceOut
  dsimp only
  split
  · next h => exact out (.of_eq h ⟨nofun, nofun⟩)
  · next h => exact out (.of_eq h ⟨nofun, nofun⟩)
  · next h => exact out (.of_eq h ⟨nofun, nofun⟩)
  · exact .refl s

theorem wellServiceIn_run : WellRun s (wellServiceIn i s).2 := by
  unfold wellServiceIn
  split
  · next h => exact (settle_run i s (.of_eq h ⟨nofun, nofun⟩) ⟨by nofun, by nofun⟩).raise _ _ _
  · exact .refl s

theorem wellHold_run (b : Bool) : WellRun s (wellHold b i s).2 := by
  unfold wellHold
  split
  · exact .refl s
  · exact setWell_run i s rfl

theorem wellAct_run (c : WellCommand) (mode : s.mbc.mode ≠ .config) : WellRun s (wellAct c i s).2 := by
  cases c with
  | start => exact wellStart_run i s mode
  | stop => exact wellStop_run i s
  | clear => exact wellClear_run i s
  | serviceOut => exact wellServiceOut_run i s
  | serviceIn => exact wellServiceIn_run i s
  | hold => exact wellHold_run i s true
  | release => exact wellHold_run i s false

end runs

/-! ## What every step keeps, with the supervisor's moves said once

`StartInv` and `CeilingInv` read the same few fields of the state; a property that the operations on these fields keep is kept by
every step (`Keeps.step`). -/

/-- The fields that the two invariants read, beside the receive state. -/
def State.core (s : State) : Wsv × Mode × Option Cap × Bool × TurbineRecord × Guard × Option Cap :=
  (s.wsv, s.mbc.mode, s.view.cap, s.todo.wsv, s.tgd.cfg, s.tgd.guard, s.tgd.cap)

/-- What an invariant has to be shown to keep for every step to keep it. -/
structure Keeps (P : State → Prop) : Prop where
  /-- Other fields change, and in CONFIG the receiver does not leave OFF (R4). -/
  quiet {s t : State} : P s → t.core = s.core → (s.mbc.mode = .config → s.lif.rx = .off → t.lif.rx = .off) → P t
  wells {s t : State} : P s → WellRun s t → P t
  process {s : State} : P s → P (wsvProcess s)
  cause {s : State} (c : Cause) (stale : Bool) : P s → P (takeCause c stale s)
  arm {s : State} : s.mbc.mode = .supervise → P s → P (turbineArm s)
  mode {s : State} {m : Mode} : m ≠ .config → P s → P { s with mbc := { s.mbc with mode := m } }
  plant {s : State} {b : List Byte} {r : PlantRecord} : s.mbc.mode = .config → PlantRecord.read b = some r → P s →
    P { s with wsv := { s.wsv with plant := r } }
  turbine {s : State} {b : List Byte} {r : TurbineRecord} : TurbineRecord.read b = some r → P s →
    P { s with tgd := { s.tgd with cfg := r } }
  fixed {s : State} : s.lif.rx = .locked → P s → P (fixView s)
  reset {s : State} : P s → P (runtimeReset s)
  power (straps : BitVec 2) (s : State) : P (powerOn straps s)

/-! ## The core through the shared operations and LIF -/

/-- A list of blocks without those that the core reads. -/
abbrev OutsideCore (ps : List Part) : Prop := .wsv ∉ ps ∧ .mbc ∉ ps ∧ .view ∉ ps ∧ .todo ∉ ps ∧ .tgd ∉ ps

theorem core_of_frame {ps : List Part} {s t : State} (f : Frame ps s t) (hps : OutsideCore ps) : t.core = s.core := by
  obtain ⟨hw, hm, hv, ht, hg⟩ := hps
  have wsv : t.wsv = s.wsv := f.same .wsv hw
  have mbc : t.mbc = s.mbc := f.same .mbc hm
  have view : t.view = s.view := f.same .view hv
  have todo : t.todo = s.todo := f.same .todo ht
  have tgd : t.tgd = s.tgd := f.same .tgd hg
  simp only [State.core, wsv, mbc, view, todo, tgd]

section core

variable (s : State)

@[simp] theorem raiseIf_core (c : Bool) (k : EventKind) (a b : Int) : (raiseIf c k a b s).core = s.core :=
  core_of_frame (raiseIf_frame c k a b s) (by decide)

@[simp] theorem raiseAll_core (es : List Report) : (raiseAll es s).core = s.core :=
  core_of_frame (raiseAll_frame es s) (by decide)

@[simp] theorem chainReset_core : (chainReset s).core = s.core := by
  unfold chainReset
  rw [raiseIf_core]
  rfl

@[simp] theorem leftLocked_core (why : Int) : (leftLocked why s).core = s.core := by
  rcases eitherOrder_cases (raise .loopUnlock 0 why) chainReset s with e | e <;> rw [leftLocked, e]
  · exact chainReset_core _
  · exact chainReset_core _

@[simp] theorem loseFrames_core (why : Int) (since : Time) : (loseFrames why since s).core = s.core := by
  unfold loseFrames
  dsimp only
  split
  · exact leftLocked_core _ why
  · rfl

@[simp] theorem countError_core (k : ErrorKind) : (countError k s).core = s.core := by
  unfold countError
  exact raiseIf_core _ _ _ _ _

@[simp] theorem judgeOutOfSequence_core (index : Nat) : (judgeOutOfSequence index s).core = s.core := by
  have hcount := countError_core s .sequence
  unfold judgeOutOfSequence
  generalize countError .sequence s = t at hcount ⊢
  dsimp only
  split
  · exact (leftLocked_core _ 1).trans hcount
  · exact hcount

@[simp] theorem takeFlags_core (i : Fin 6) (station remote : Bool) : (takeFlags i station remote s).core = s.core := by
  unfold takeFlags
  dsimp only
  rw [raiseIf_core, raiseIf_core, raiseIf_core]
  rfl

@[simp] theorem countCheck_core (good : Bool) : (countCheck good s).core = s.core := by
  unfold countCheck
  split
  · rfl
  · exact countError_core s .check

@[simp] theorem enterLocked_core : (enterLocked s).core = s.core := by
  unfold enterLocked endBlind
  split <;> rfl

@[simp] theorem qualify_core (i : Fin 6) : (qualify i s).core = s.core := by
  unfold qualify
  dsimp only
  split
  · rfl
  · split
    · exact enterLocked_core _
    · rfl

end core

/-! ## A frame judged: a scan handed over, or nothing that the invariants read -/

/-- A frame judged in s leaves what the invariants read, or hands a scan over in LOCKED. -/
def Judged (s t : State) : Prop := t.core = s.core ∨ ∃ u, u.core = s.core ∧ u.lif.rx = .locked ∧ t = handOver u

section judged

variable {s u : State}

theorem afterFrame_judged (expected : Option (Fin 6)) (h : u.core = s.core) : Judged s (afterFrame expected u) := by
  unfold afterFrame
  split
  · next last => exact .inr ⟨u, h, last.1, rfl⟩
  · exact .inl h

theorem judgeBadAlign_judged (h : u.core = s.core) : Judged s (judgeBadAlign u) := by
  have hcount : (countError .alignment u).core = s.core := (countError_core u _).trans h
  unfold judgeBadAlign
  generalize countError .alignment u = t at hcount ⊢
  dsimp only
  split
  · exact .inl ((loseFrames_core _ _ _).trans hcount)
  · exact afterFrame_judged _ hcount

theorem collect_judged (expected : Option (Fin 6)) (taken : Bool) (i : Fin 6) (slots : Vector Word 28) (h : u.core = s.core) :
    Judged s (collect expected taken i slots u) := by
  unfold collect
  split
  · exact afterFrame_judged _ h
  · exact .inl ((qualify_core _ _).trans h)

theorem judgeFramed_judged (f : LoopFrame) (h : u.core = s.core) : Judged s (judgeFramed f u) := by
  unfold judgeFramed
  split
  · exact judgeBadAlign_judged h
  · dsimp only
    split
    · exact .inl ((judgeOutOfSequence_core _ _).trans h)
    · exact collect_judged _ _ _ _ (((takeFlags_core _ _ _ _).trans (countCheck_core _ _)).trans h)

theorem judgeFrame_judged (f : LoopFrame) (s : State) : Judged s (judgeFrame f s) := by
  unfold judgeFrame
  repeat' split
  · exact .inl (loseFrames_core _ _ _)
  · exact judgeFramed_judged f rfl
  · exact .inl rfl

end judged

/-! ## The receiver stays OFF (R4) -/

section off

variable {s : State} (off : s.lif.rx = .off)
include off

theorem matchBits_off (p : Nat) (bits : Word) : (matchBits p bits s).lif.rx = .off := by
  unfold matchBits
  repeat' split
  all_goals exact off

theorem judgeCandidate_off (w : CandidateWords) : (judgeCandidate w s).lif.rx = .off := by
  simp [judgeCandidate, Lif.underTest, off]

theorem huntExpiry_off : (huntExpiry s).lif.rx = .off := by
  simp [huntExpiry, off]

theorem dwellExpiry_off : (dwellExpiry s).lif.rx = .off := by
  simp [dwellExpiry, off]

omit off in
theorem scanStart_rx (s : State) : (scanStart s).lif.rx = s.lif.rx := by
  unfold scanStart
  split <;> rfl

omit off in
theorem frameStart_rx (s : State) : (frameStart s).lif.rx = s.lif.rx := by
  unfold frameStart
  split <;> rfl

end off

theorem rx_of_watches {l : Lif} (h : l.rx.watches = true) : l.rx ≠ .off := fun e => by simp [e, RxState.watches] at h

/-! ## Every step keeps it -/

/-- WELL is table 2, which is written in CONFIG only (Table 11-5). -/
theorem TableRef.find_well {t n : Nat} {i : WellNo} (h : TableRef.find t n = some (.well i)) : configOnly t = true := by
  unfold TableRef.find at h
  split at h
  case h_3 => rfl
  all_goals simp at h

/-- PLANT is table 8, which is written in CONFIG only (Table 11-5). -/
theorem TableRef.find_plant {t n : Nat} (h : TableRef.find t n = some .plant) : configOnly t = true := by
  unfold TableRef.find at h
  split at h
  case h_9 => rfl
  all_goals simp at h

/-- A handler of requests keeps an invariant. -/
def HandlerKeeps (P : State → Prop) (handler : Handler) : Prop := ∀ (p : List Byte) (s : State), P s → P (handler p s).2

theorem foldl_holds {P : State → Prop} {α : Type} {f : State → α → State} (hf : ∀ s a, P s → P (f s a)) (l : List α)
    {s : State} (h : P s) : P (l.foldl f s) :=
  List.foldlRecOn l f h fun s hs a _ => hf s a hs

theorem storeIf_holds {P : State → Prop} {s : State} {α : Type} {r : Option α} {put : α → State} (h : P s)
    (hput : ∀ a, r = some a → P (put a)) : P (storeIf r put s).2 := by
  unfold storeIf
  split
  · exact h
  · exact hput _ rfl

@[simp] theorem tgdChain_core (s : State) : (tgdChain s).core = s.core := by
  unfold tgdChain
  rw [raiseAll_core]
  rfl

@[simp] theorem tgdDemands_core (s : State) : (tgdDemands s).core = s.core := rfl

@[simp] theorem hxuProcess_core (s : State) : (hxuProcess s).core = s.core := by
  unfold hxuProcess
  split
  · refine (core_of_frame (Frame.ite (hxuPhases_frame _) (deliverHeat_frame _ _)) (by decide)).trans ?_
    rfl
  · rfl

@[simp] theorem scmProcess_core (s : State) : (scmProcess s).core = s.core := by
  unfold scmProcess
  split
  · refine (core_of_frame ((scmFactor_frame _).trans (Frame.foldl processPoint_frame (List.finRange 8) _)) (by decide)).trans ?_
    rfl
  · rfl

@[simp] theorem capProcess_core (s : State) : (capProcess s).core = s.core := by
  unfold capProcess
  split
  · dsimp only
    split
    · rfl
    · rfl
    · refine (core_of_frame (decimate_frame _) (by decide)).trans ?_
      rfl
    · split
      · refine (core_of_frame (decimate_frame _) (by decide)).trans ?_
        rfl
      · refine (core_of_frame ((trigger_frame _ _).trans (Frame.ite (.refl _ _) (decimate_frame _))) (by decide)).trans ?_
        rfl
  · rfl

namespace Keeps

variable {P : State → Prop} (K : Keeps P) {s t : State}
include K

/-- Only fields that the invariants do not read change. -/
theorem other (h : P s) (e : t.core = s.core) (hrx : t.lif.rx = s.lif.rx) : P t := K.quiet h e fun _ off => hrx.trans off

theorem frame {ps : List Part} (h : P s) (f : Frame ps s t) (hps : OutsideCore ps) (hlif : .lif ∉ ps) : P t :=
  K.other h (core_of_frame f hps) (congrArg Lif.rx (f.same .lif hlif))

theorem raise (k : EventKind) (a b : Int) (h : P s) : P (raise k a b s) := K.other h rfl rfl

theorem eitherOrder {f g : State → State} (hf : ∀ s, P s → P (f s)) (hg : ∀ s, P s → P (g s)) (h : P s) :
    P (eitherOrder f g s) := by
  have counted : P { s with free := s.free + 1 } := K.other h rfl rfl
  rcases eitherOrder_cases f g s with e | e <;> rw [e]
  · exact hg _ (hf _ counted)
  · exact hf _ (hg _ counted)

/-! ### The jobs and the handover -/

theorem tgdCauses (h : P s) : P (tgdCauses s) := by
  unfold Machine.tgdCauses
  exact foldl_holds (fun _ c => K.cause c.1 c.2) _ (K.other h rfl rfl)

theorem tgdProcess (h : P s) : P (tgdProcess s) := by
  unfold Machine.tgdProcess
  split
  · have taken : P { s with todo := { s.todo with tgd := false }, tgd := { s.tgd with view := s.view } } := K.other h rfl rfl
    have causes := K.tgdCauses taken
    generalize Machine.tgdCauses _ = t at causes ⊢
    have chain := K.other causes (tgdChain_core t) (congrArg Lif.rx ((tgdChain_frame t).same .lif (by decide)))
    exact K.other chain (tgdDemands_core _) rfl
  · exact h

theorem activate (h : P s) : P (activate s) := by
  unfold Machine.activate
  split
  · exact h
  · exact K.other h rfl rfl

theorem endLeaving (h : P s) : P (endLeaving s) := by
  unfold Machine.endLeaving
  split
  · exact K.other (K.mode (m := .standby) nofun h) rfl rfl
  · exact h

theorem mbcProcess (h : P s) : P (mbcProcess s) := by
  unfold Machine.mbcProcess
  split
  · have activated := K.activate (K.other (t := { s with todo := { s.todo with mbc := false } }) h rfl rfl)
    have direct (t : State) (i : Fin 8) (ht : P t) : P (directDemand t i) := K.other ht rfl rfl
    exact K.endLeaving (foldl_holds direct (List.finRange 8) activated)
  · exact h

theorem catchUp (h : P s) : P (catchUp s) := by
  have guarded := K.tgdProcess (K.process (K.mbcProcess h))
  unfold Machine.catchUp
  generalize Machine.tgdProcess _ = t at guarded ⊢
  have heated := K.other guarded (hxuProcess_core t) (congrArg Lif.rx ((hxuProcess_frame t).same .lif (by decide)))
  have scaled := K.other heated (scmProcess_core _) (congrArg Lif.rx ((scmProcess_frame _).same .lif (by decide)))
  exact K.other scaled (capProcess_core _) (congrArg Lif.rx ((capProcess_frame _).same .lif (by decide)))

/-- A scan is handed over in LOCKED. -/
theorem handOver (locked : s.lif.rx = .locked) (h : P s) : P (handOver s) := by
  have hlif : (converted s).lif = s.lif :=
    ((converted_frame s).same .lif (by decide)).trans ((catchUp_jobs s).same .lif (by decide))
  have ready : P (converted s) := K.frame (K.catchUp h) (converted_frame s) (by decide) (by decide)
  rw [handOver_eq]
  generalize converted s = u at hlif ready ⊢
  exact K.other (K.fixed (hlif ▸ locked) ready) rfl rfl

/-! ### LIF -/

theorem judgeFrame (f : LoopFrame) (h : P s) : P (judgeFrame f s) := by
  by_cases watches : s.lif.rx.watches
  · have driven : s.lif.rx ≠ .off := rx_of_watches watches
    rcases judgeFrame_judged f s with kept | ⟨u, kept, locked, e⟩
    · exact K.quiet h kept fun _ off => absurd off driven
    · rw [e]
      exact K.handOver locked (K.quiet h kept fun _ off => absurd off driven)
  · rw [Machine.judgeFrame, if_neg watches]
    exact h

theorem lineSilence (h : P s) : P (lineSilence s) := by
  unfold Machine.lineSilence
  split
  · next watches =>
    exact K.quiet h ((loseFrames_core _ _ _).trans rfl) fun _ off => absurd off (rx_of_watches watches)
  · exact h

theorem blindExpiry (h : P s) : P (blindExpiry s) := by
  unfold Machine.blindExpiry
  split
  · exact h
  · next t _ =>
    have expired : P { s.reachEnd t with lif := { s.lif with blindTimer := none, blind := true } } := K.other h rfl rfl
    exact K.eitherOrder (fun _ => K.raise _ _ _) (fun _ => K.cause .blind false)
      (K.frame expired (outBlind_frame _) (by decide) (by decide))

/-- The receiver's hunt and the transmitter change LIF and its event alone. -/
theorem loop {ps : List Part} (h : P s) (f : Frame ps s t) (hps : OutsideCore ps)
    (off : s.lif.rx = .off → t.lif.rx = .off) : P t :=
  K.quiet h (core_of_frame f hps) fun _ => off

/-! ### TGD -/

theorem turbineCmd (p : List Byte) (h : P s) : P (turbineCmd p s).2 := by
  have trip : P (turbineTrip s).2 := by
    unfold turbineTrip
    repeat' split
    · exact h
    · exact h
    · exact K.cause .hostTrip false h
  have reset : P (turbineReset s).2 := by
    unfold turbineReset
    split
    · exact h
    · next mode =>
      repeat' split
      · exact h
      · exact h
      · exact h
      · exact K.arm (not_not.mp mode) h
  have release : P (turbineRelease s).2 := by
    unfold turbineRelease
    repeat' split
    all_goals exact K.other h rfl rfl
  unfold Machine.turbineCmd
  repeat' split
  · exact trip
  · exact reset
  · exact release
  · exact h
  · exact h

theorem holdExpiry (st : HoldStep) (h : P s) : P (holdExpiry st s) := by
  unfold Machine.holdExpiry
  split
  · exact K.other h rfl rfl
  · exact h
  · exact h

/-! ### MBC -/

theorem changeMode {m : Mode} (hm : m ≠ .config) (h : P s) : P (changeMode m s) := K.other (K.mode hm h) rfl rfl

theorem enterLeaving (h : P s) : P (enterLeaving s) :=
  K.eitherOrder (fun _ => K.raise _ _ _) (fun _ h => K.wells h (emptyStartQueue_run _)) (K.mode (m := .leaving) nofun h)

theorem setMode (p : List Byte) (h : P s) : P (setMode p s).2 := by
  have config : P (setConfig s).2 := by
    unfold setConfig
    split
    · exact h
    · exact K.other (K.reset h) rfl rfl
    · exact h
    · exact h
  have standby : P (setStandby s).2 := by
    unfold setStandby
    split
    · split
      · exact h
      · exact K.quiet (K.changeMode (m := .standby) nofun h) rfl nofun
    · exact h
    · exact K.enterLeaving h
    · exact h
  have supervise : P (setSupervise s).2 := by
    unfold setSupervise
    repeat' split
    · exact h
    · exact K.changeMode (m := .supervise) nofun h
    · exact h
    · exact h
    · exact h
  unfold Machine.setMode
  repeat' split
  · exact config
  · exact standby
  · exact supervise
  · exact h
  · exact h

theorem stage (p : List Byte) (h : P s) : P (stage p s).2 := by
  unfold Machine.stage
  dsimp only
  repeat' split
  all_goals exact K.other h rfl rfl

theorem publishBank (p : List Byte) (h : P s) : P (publishBank p s).2 := by
  have filled : P (fillPending s) := by
    have processed := K.mbcProcess h
    unfold fillPending
    generalize Machine.mbcProcess s = t at processed ⊢
    dsimp only
    split <;> exact K.other processed rfl rfl
  unfold Machine.publishBank
  repeat' split
  · exact h
  · exact h
  · exact filled
  · exact h

theorem resume (p : List Byte) (h : P s) : P (resume p s).2 := by
  unfold Machine.resume
  repeat' split
  all_goals exact K.other h rfl rfl

theorem hostExpiry (h : P s) : P (hostExpiry s) := by
  unfold Machine.hostExpiry
  split
  · exact h
  · exact K.other h rfl rfl

/-! ### WSV -/

theorem wellCmd (p : List Byte) (h : P s) : P (wellCmd p s).2 := by
  unfold Machine.wellCmd
  repeat' split
  · exact h
  · exact h
  · exact h
  · next taken =>
    refine K.wells h (wellAct_run _ s _ fun config => ?_)
    simp [wellRefusal, WellCommand.modeTakes, config] at taken
  · exact h

theorem startExpiry (i : WellNo) (h : P s) : P (startExpiry i s) := by
  unfold Machine.startExpiry
  split
  · next t starting _ =>
    have expired : P (s.reachEnd t) := K.other h rfl rfl
    exact K.wells expired ((tripWell_run (s := s.reachEnd t) .startFail (.inl starting)).trans (arbiter_run _))
  · exact h

theorem staggerExpiry (h : P s) : P (staggerExpiry s) := by
  unfold Machine.staggerExpiry
  split
  · exact K.wells (K.other (t := s.reachEnd _) h rfl rfl) (WellRun.trans (.move (.stagger none)) (arbiter_run _))
  · exact h

/-! ### The tables -/

theorem store (ref : TableRef) (b : List Byte) (hm : (∀ i, ref = .well i → s.mbc.mode = .config) ∧
    (ref = .plant → s.mbc.mode = .config)) (h : P s) : P (ref.store b s).2 := by
  cases ref with
  | well i =>
    refine storeIf_holds h fun r _ => K.wells h (.move (.role i _ (hm.1 i rfl) ?_))
    cases r.role <;> exact ⟨nofun, nofun⟩
  | plant => exact storeIf_holds h fun r read => K.plant (hm.2 rfl) read h
  | turbine => exact storeIf_holds h fun r read => K.turbine read h
  | permit i => exact storeIf_holds h fun r _ => K.wells h (setWell_run i s rfl)
  | hold i => exact storeIf_holds h fun r _ => K.wells h (setWell_run i s rfl)
  | curve i =>
    show P (storeCurve i b s).2
    unfold storeCurve
    split
    · exact h
    · exact storeIf_holds h fun _ _ => K.other h rfl rfl
  | heatCurve =>
    show P (storeHeatCurve b s).2
    unfold storeHeatCurve
    split
    · exact h
    · exact storeIf_holds h fun _ _ => K.other h rfl rfl
  | capture =>
    show P (storeCapture b s).2
    unfold storeCapture
    repeat' split
    · exact h
    · exact h
    · exact storeIf_holds h fun _ _ => K.other h rfl rfl
  | _ => exact storeIf_holds h fun _ _ => K.other h rfl rfl

theorem tableWrite (p : List Byte) (h : P s) : P (tableWrite p s).2 := by
  unfold Machine.tableWrite
  split
  · next t i b =>
    show P (writeTable t.toNat i.toNat b s).2
    unfold writeTable
    split
    · exact h
    · next ref found =>
      split
      · exact h
      · next mode =>
        split
        · exact h
        · have config (hc : configOnly t.toNat = true) : s.mbc.mode = .config := not_not.mp fun hm => mode ⟨hc, hm⟩
          refine K.store ref b ⟨fun j hj => config ?_, fun hj => config ?_⟩ h
          · exact TableRef.find_well (hj ▸ found)
          · exact TableRef.find_plant (hj ▸ found)
  · exact h

/-! ### Every command -/

/-- A handler that changes no block the invariants read. -/
theorem handlerFrame {ps : List Part} {handler : Handler} (f : HandlerFrame ps handler)
    (hps : OutsideCore ps ∧ .lif ∉ ps) : HandlerKeeps P handler :=
  fun p s h => K.frame h (f p s) hps.1 hps.2

theorem readLoop (p : List Byte) (h : P s) : P (readLoop p s).2 := by
  unfold Machine.readLoop
  repeat' split
  all_goals exact K.other h rfl rfl

theorem handlers : ∀ handler ∈ handlers, HandlerKeeps P handler := by
  simp only [Machine.handlers, List.cons_append, List.nil_append, List.forall_mem_cons, List.not_mem_nil, false_imp_iff,
    implies_true, and_true]
  refine ⟨K.handlerFrame ident_frame (by decide), K.handlerFrame status_frame (by decide), fun p _ => K.setMode p,
    K.handlerFrame restart_frame (by decide), fun p _ => K.tableWrite p, K.handlerFrame tableRead_frame (by decide),
    fun p _ => K.stage p, fun p _ => K.publishBank p, K.handlerFrame readBank_frame (by decide),
    fun p _ => K.resume p, fun p _ => K.wellCmd p, K.handlerFrame readWells_frame (by decide),
    fun p _ => K.turbineCmd p, K.handlerFrame readTurbine_frame (by decide), K.handlerFrame outputCmd_frame (by decide),
    K.handlerFrame readOutputs_frame (by decide), K.handlerFrame force_frame (by decide), K.handlerFrame unforce_frame (by decide),
    K.handlerFrame trim_frame (by decide), K.handlerFrame readChannels_frame (by decide), K.handlerFrame setLab_frame (by decide),
    K.handlerFrame ackAlarm_frame (by decide), K.handlerFrame readScale_frame (by decide),
    K.handlerFrame readHeat_frame (by decide), K.handlerFrame clearEnergy_frame (by decide), fun p _ => K.readLoop p, K.handlerFrame fetchEvents_frame (by decide),
    K.handlerFrame captureCmd_frame (by decide), K.handlerFrame readCapture_frame (by decide),
    K.handlerFrame timeSet_frame (by decide), K.handlerFrame timeSync_frame (by decide)⟩

theorem anyFrame (kind : Byte) (r : Request) (h : P s) : P (anyFrame kind r s) := by
  have keeps : HandlerKeeps P (handlerOf kind) := by
    rcases handlerOf_mem kind with known | unknown
    · exact K.handlers _ known
    · rw [unknown]
      exact K.handlerFrame unknown_frame (by decide)
  have heard : P s.hears := K.other h rfl rfl
  unfold Machine.anyFrame goodFrame
  split
  · exact K.other heard rfl rfl
  · exact K.other (keeps r.payload _ heard) rfl rfl

theorem receiver (rx : CptRx) (h : P s) : P (receiver rx s) := K.other h rfl rfl

theorem completeFrame (kind : Byte) (r : Request) (crc : Word) (h : P s) : P (completeFrame kind r crc s) := by
  unfold Machine.completeFrame
  split
  · exact K.anyFrame kind r h
  · exact K.receiver _ h

theorem takeByte (b : Byte) (h : P s) : P (takeByte b s) := by
  have fresh : P (if dueAt s.now s.gapTimer then Machine.receiver .hunt s else s) := by
    split
    · exact K.receiver _ h
    · exact h
  unfold Machine.takeByte
  generalize (if dueAt s.now s.gapTimer then Machine.receiver .hunt s else s) = t at fresh ⊢
  unfold judgeByte
  split
  · split
    · exact K.receiver _ fresh
    · exact fresh
  · exact K.receiver _ fresh
  · exact K.receiver _ fresh
  · exact K.receiver _ fresh
  · unfold completeBody
    split
    · exact K.completeFrame _ _ _ fresh
    · exact K.receiver _ fresh

theorem restartNow (h : P s) : P (restartNow s) := K.other (K.reset h) rfl rfl

theorem replyEnds (h : P s) : P (replyEnds s) := by
  unfold Machine.replyEnds emptyBuffer
  repeat' split
  · exact h
  · exact K.restartNow (K.other (t := s.reachEnd _) h rfl rfl)
  · exact K.other h rfl rfl

theorem restartEnds (h : P s) : P (restartEnds s) := by
  unfold Machine.restartEnds
  repeat' split
  · exact h
  · exact K.restartNow (K.other (t := s.reachEnd _) h rfl rfl)
  · exact h

omit K in
theorem live {f : State → State} (h : P s) (hf : P (f s)) (e : live s f = .next t) : P t := by
  obtain rfl := Host.Outcome.next.inj e
  split
  · exact h
  · exact hf

/-- Every command keeps the invariant: a frame by its handler, a job or a timer by its block, LIF's hunt and transmitter because
they leave OFF alone, and the rest because they change no field the invariants read. -/
theorem exec {c : Instr} (h : P s) (e : exec c s = .next t) : P t := by
  cases hf : c.frame with
  | some p => exact live h (K.anyFrame p.1 p.2 h) ((exec_frameRow s hf).symm.trans e)
  | none =>
    cases c with
    | restartEffect => exact live h (K.restartEnds h) e
    | crcMismatchDiscard kind r crc => exact live h (K.completeFrame kind r crc h) e
    | badLenDiscard b => exact live h (K.takeByte b h) e
    | replySent => exact live h (K.replyEnds h) e
    | powerOnReset straps => exact Host.Outcome.next.inj e ▸ K.power straps s
    | resetPinLow => exact Host.Outcome.next.inj e ▸ K.other h rfl rfl
    | frameJudge f => exact live h (K.judgeFrame f h) e
    | lineSilenceTimeout => exact live h (K.lineSilence h) e
    | blindTimerExpiry => exact live h (K.blindExpiry h) e
    | candidateMatch p bits => exact live h (K.loop h (matchBits_frame p bits s) (by decide) (matchBits_off · p bits)) e
    | candidateConfirm w => exact live h (K.loop h (judgeCandidate_frame w s) (by decide) (judgeCandidate_off · w)) e
    | candidateFail w => exact live h (K.loop h (judgeCandidate_frame w s) (by decide) (judgeCandidate_off · w)) e
    | huntIntervalExpiry => exact live h (K.loop h (huntExpiry_frame s) (by decide) huntExpiry_off) e
    | searchDwellExpiry => exact live h (K.loop h (dwellExpiry_frame s) (by decide) dwellExpiry_off) e
    | outboundScanStart => exact live h (K.loop h (scanStart_frame s) (by decide) (scanStart_rx s).trans) e
    | outboundFrameStart => exact live h (K.loop h (frameStart_frame s) (by decide) (frameStart_rx s).trans) e
    | mbcProcessSnapshot => exact live h (K.mbcProcess h) e
    | hostTimerExpiry => exact live h (K.hostExpiry h) e
    | wsvProcessSnapshot => exact live h (K.process h) e
    | startTimerExpiry i => exact live h (K.startExpiry i h) e
    | staggerTimerExpiry => exact live h (K.staggerExpiry h) e
    | tgdProcessSnapshot => exact live h (K.tgdProcess h) e
    | permissiveHoldExpiry st => exact live h (K.holdExpiry st h) e
    | hxuProcessSnapshot =>
      exact live h (K.other h (hxuProcess_core s) (congrArg Lif.rx ((hxuProcess_frame s).same .lif (by decide)))) e
    | scmProcessSnapshot =>
      exact live h (K.other h (scmProcess_core s) (congrArg Lif.rx ((scmProcess_frame s).same .lif (by decide)))) e
    | capProcessSnapshot =>
      exact live h (K.other h (capProcess_core s) (congrArg Lif.rx ((capProcess_frame s).same .lif (by decide)))) e
    | framingErrorAbandon | gapAbandon | clockAdvance =>
      exact K.frame h (exec_frame e) (by decide) (by decide)
    | _ => exact nomatch hf

/-- An idle step moves the time base and the queue alone, and any other step runs a command. -/
theorem step (h : P s) (e : step s = .next t) : P t := by
  unfold Machine.step at e
  split at e
  · obtain rfl := Host.Outcome.next.inj e
    unfold tick
    split
    · exact h
    · exact K.other h rfl rfl
  · refine K.exec ?_ e
    exact K.other h rfl rfl

end Keeps

/-! ## The start queue and the slot (R85) -/

/-- `StartInv` as a property of the supervisor's record and the mode. -/
structure Wsv.Starts (m : Mode) (v : Wsv) : Prop where
  once : v.queue.Nodup
  queued : ∀ i : WellNo, i ∈ v.queue ↔ v.wells[i].state = some .startPending
  slot : ∀ i : WellNo, v.slot = some i ↔ v.wells[i].state = some .starting
  config : m = .config → v.queue = [] ∧ v.slot = none

theorem startInv_iff (s : State) : StartInv s ↔ s.wsv.Starts s.mbc.mode :=
  ⟨fun h => ⟨h.once, h.queued, h.slot, h.config⟩, fun h => ⟨h.once, h.queued, h.slot, h.config⟩⟩

namespace Wsv.Starts

variable {m : Mode} {v u : Wsv} {i : WellNo} {w : Well}

/-- Only the queue, the slot and the wells' states matter. -/
theorem congr (h : v.Starts m) (hq : u.queue = v.queue) (hs : u.slot = v.slot)
    (hw : ∀ j : WellNo, u.wells[j].state = v.wells[j].state) : u.Starts m :=
  ⟨hq ▸ h.once, fun j => by rw [hq, hw]; exact h.queued j, fun j => by rw [hs, hw]; exact h.slot j,
    fun hm => by rw [hq, hs]; exact h.config hm⟩

/-- One well has moved, and the queue and the slot have followed it. -/
theorem moved (h : v.Starts m) (hwells : u.wells = v.wells.set i w) (once : u.queue.Nodup)
    (queued : i ∈ u.queue ↔ w.state = some .startPending) (others : ∀ j ≠ i, (j ∈ u.queue ↔ j ∈ v.queue))
    (slot : u.slot = some i ↔ w.state = some .starting) (rest : ∀ j ≠ i, (u.slot = some j ↔ v.slot = some j))
    (config : m = .config → u.queue = [] ∧ u.slot = none) : u.Starts m := by
  refine ⟨once, fun j => ?_, fun j => ?_, config⟩ <;> rw [hwells] <;> by_cases hj : j = i
  · subst hj
    rw [wells_set_self, queued]
  · rw [wells_set_other _ _ _ hj, others j hj, h.queued j]
  · subst hj
    rw [wells_set_self, slot]
  · rw [wells_set_other _ _ _ hj, rest j hj, h.slot j]

theorem not_queued (h : v.Starts m) (hi : v.wells[i].state ≠ some .startPending) : i ∉ v.queue := mt (h.queued i).mp hi

theorem not_slot (h : v.Starts m) (hi : v.wells[i].state ≠ some .starting) : v.slot ≠ some i := mt (h.slot i).mp hi

theorem mem_erase (h : v.Starts m) {j : WellNo} : j ∈ v.queue.erase i ↔ j ≠ i ∧ j ∈ v.queue := h.once.mem_erase_iff

theorem erase_config (h : v.Starts m) (hm : m = .config) : v.queue.erase i = [] := by
  rw [(h.config hm).1, List.erase_nil]

/-- A well outside the start is replaced by one outside the start. -/
theorem settle (h : v.Starts m) (before : WellState.AtRest v.wells[i].state) (after : WellState.AtRest w.state) :
    Starts m { v with wells := v.wells.set i w } :=
  h.moved rfl h.once (iff_of_false (h.not_queued before.1) after.1) (fun _ _ => Iff.rfl)
    (iff_of_false (h.not_slot before.2) after.2) (fun _ _ => Iff.rfl) h.config

/-- In CONFIG every well is outside the start. -/
theorem atRest (h : v.Starts .config) (i : WellNo) : WellState.AtRest v.wells[i].state := by
  obtain ⟨hq, hs⟩ := h.config rfl
  exact ⟨fun e => by simpa [hq] using (h.queued i).mpr e, fun e => by simpa [hs] using (h.slot i).mpr e⟩

theorem join (h : v.Starts m) {q : List WellNo} (before : WellState.AtRest v.wells[i].state)
    (after : w.state = some .startPending) (place : q.Perm (i :: v.queue)) (mode : m ≠ .config) :
    Starts m { v with queue := q, wells := v.wells.set i w } := by
  have hmem (j : WellNo) : j ∈ q ↔ j = i ∨ j ∈ v.queue := by rw [place.mem_iff, List.mem_cons]
  refine h.moved rfl (place.nodup_iff.mpr (List.nodup_cons.mpr ⟨h.not_queued before.1, h.once⟩)) ?_ (fun j hj => ?_) ?_
    (fun _ _ => Iff.rfl) (absurd · mode)
  · exact iff_of_true ((hmem i).mpr (.inl rfl)) after
  · exact (hmem j).trans (or_iff_right hj)
  · exact iff_of_false (h.not_slot before.2) (by rw [after]; nofun)

theorem leave (h : v.Starts m) (before : v.wells[i].state ≠ some .starting) (after : WellState.AtRest w.state) :
    Starts m { v with queue := v.queue.erase i, wells := v.wells.set i w } :=
  h.moved rfl (h.once.erase i) (iff_of_false (fun hi => (h.mem_erase.mp hi).1 rfl) after.1)
    (fun _ hj => h.mem_erase.trans (and_iff_right hj)) (iff_of_false (h.not_slot before) after.2) (fun _ _ => Iff.rfl)
    fun hm => ⟨h.erase_config hm, (h.config hm).2⟩

theorem grant (h : v.Starts m) (free : v.slot = none) (after : w.state = some .starting) (mode : m ≠ .config) :
    Starts m { v with queue := v.queue.erase i, slot := some i, wells := v.wells.set i w } :=
  h.moved rfl (h.once.erase i) (iff_of_false (fun hi => (h.mem_erase.mp hi).1 rfl) (by rw [after]; nofun))
    (fun _ hj => h.mem_erase.trans (and_iff_right hj)) (iff_of_true rfl after)
    (fun j hj => iff_of_false (fun e => hj (Option.some.inj e).symm) (by rw [free]; nofun)) (absurd · mode)

theorem release (h : v.Starts m) {q : List WellNo} {x : Option Timer} (before : v.wells[i].state = some .starting)
    (after : WellState.AtRest w.state) (queue : q = v.queue ∨ q = v.queue.erase i) :
    Starts m { v with queue := q, slot := none, stagger := x, wells := v.wells.set i w } := by
  have waits : i ∉ v.queue := h.not_queued (by rw [before]; nofun)
  have held : v.slot = some i := (h.slot i).mpr before
  obtain rfl : q = v.queue := queue.elim id fun e => e.trans (List.erase_of_not_mem waits)
  exact h.moved rfl h.once (iff_of_false waits after.1) (fun _ _ => Iff.rfl) (iff_of_false nofun after.2)
    (fun j hj => iff_of_false nofun fun e => hj (Option.some.inj (e.symm.trans held))) fun hm => ⟨(h.config hm).1, rfl⟩

theorem empty (h : v.Starts m) (none : ∀ i : WellNo, v.wells[i].state ≠ some .startPending) : Starts m { v with queue := [] } :=
  ⟨List.nodup_nil, fun i => iff_of_false List.not_mem_nil (none i), h.slot, fun hm => ⟨rfl, (h.config hm).2⟩⟩

theorem move (h : v.Starts m) (k : v.Move m u) : u.Starts m := by
  cases k with
  | edit i w same =>
    refine h.congr rfl rfl fun j => ?_
    by_cases hj : j = i
    · subst hj
      rw [wells_set_self, same]
    · rw [wells_set_other _ _ _ hj]
  | settle i w before after => exact h.settle before after
  | role i w config after =>
    subst config
    exact h.settle (h.atRest i) after
  | join i w q before after place mode => exact h.join before after place mode
  | leave i w before after => exact h.leave before after
  | grant i w queued free after mode => exact h.grant free after mode
  | release i w q x before after queue => exact h.release before after queue
  | empty none => exact h.empty none
  | stagger x => exact h.congr rfl rfl fun _ => rfl
  | balance r deficit capacity threshold mark => exact h.congr rfl rfl fun _ => rfl

theorem run {s t : State} (h : s.wsv.Starts s.mbc.mode) (k : WellRun s t) : t.wsv.Starts t.mbc.mode := by
  rw [k.mbc]
  exact Relation.ReflTransGen.rec h (fun _ last ih => ih.move last) k.moves

end Wsv.Starts

/-- Nothing waits and nothing starts, in any mode. -/
theorem Wsv.Starts.of_atRest {v : Wsv} (m : Mode) (hq : v.queue = []) (hs : v.slot = none)
    (h : ∀ i : WellNo, WellState.AtRest v.wells[i].state) : v.Starts m :=
  ⟨hq ▸ List.nodup_nil, fun i => iff_of_false (hq ▸ List.not_mem_nil) (h i).1, fun i => iff_of_false (hs ▸ nofun) (h i).2,
    fun _ => ⟨hq, hs⟩⟩

theorem Role.initState_atRest (r : Role) : WellState.AtRest r.initState := by
  cases r <;> exact ⟨nofun, nofun⟩

/-- `StartInv` in the form in which the operations keep it. -/
def State.Starts (s : State) : Prop := s.wsv.Starts s.mbc.mode

section starts

variable {s t : State}

theorem State.Starts.of_eq (h : s.Starts) (hw : t.wsv = s.wsv) (hm : t.mbc = s.mbc) : t.Starts := by
  unfold State.Starts
  rw [hw, hm]
  exact h

theorem wsvPhases_starts (h : s.Starts) : (wsvPhases s).Starts := by
  have balanced : (wsvBalance s).Starts := Wsv.Starts.run h (wsvBalance_run s)
  have ceiling : (wsvCeiling (wsvBalance s)).Starts := Wsv.Starts.congr balanced rfl rfl fun _ => rfl
  exact Wsv.Starts.run ceiling ((wsvWells_run _).trans (wsvGrant_run _ _))

theorem wsvFrozen_starts (h : s.Starts) : (wsvFrozen s).Starts := by
  unfold wsvFrozen
  refine Wsv.Starts.run (s := { s with wsv := { s.wsv with ceiling := _ } }) ?_
    (WellRun.foldl (fun s i => frozenWell_run i s) (List.finRange 16) _)
  exact Wsv.Starts.congr h rfl rfl fun _ => rfl

theorem wsvProcess_starts (h : s.Starts) : (wsvProcess s).Starts := by
  unfold wsvProcess
  split
  · have taken : State.Starts { s with todo := { s.todo with wsv := false }, wsv := { s.wsv with view := s.view } } :=
      Wsv.Starts.congr h rfl rfl fun _ => rfl
    dsimp only
    split
    · exact wsvPhases_starts taken
    · exact wsvPhases_starts taken
    · exact wsvFrozen_starts taken
    · exact wsvFrozen_starts taken
  · exact h

end starts

theorem keeps_starts : Keeps State.Starts where
  quiet h e _ := by
    simp only [State.core, Prod.mk.injEq] at e
    obtain ⟨hw, hm, -⟩ := e
    unfold State.Starts
    rw [hw, hm]
    exact h
  wells := Wsv.Starts.run
  process := wsvProcess_starts
  cause c stale h := h.of_eq ((takeCause_frame c stale _).same .wsv (by decide)) ((takeCause_frame c stale _).same .mbc (by decide))
  arm _ h := h.of_eq ((turbineArm_frame _).same .wsv (by decide)) ((turbineArm_frame _).same .mbc (by decide))
  mode hm h := ⟨h.once, h.queued, h.slot, (absurd · hm)⟩
  plant _ _ h := Wsv.Starts.congr h rfl rfl fun _ => rfl
  turbine _ h := h.of_eq rfl rfl
  fixed _ h := h.of_eq rfl rfl
  reset _ := .of_atRest _ rfl rfl fun i => by
    simp only [runtimeReset, Wsv.reset, Fin.getElem_fin, Vector.getElem_map]
    exact Role.initState_atRest _
  power straps s := .of_atRest _ rfl rfl fun i => by
    simp only [powerOn, State.powerOn, Fin.getElem_fin, Vector.getElem_replicate]
    exact Role.initState_atRest WellRecord.default.role

/-- Settles O57: the moves of the supervisor carry the queue and the slot with the well they move, and nothing else reaches
them. -/
theorem startInvKept : Obligations.StartInvKept := fun s t h e =>
  (startInv_iff t).mpr (keeps_starts.step ((startInv_iff s).mp h) e)

/-! ## The production ceiling (R73, R96, R107) -/

/-- The trip cap that a trip puts in force is the ceiling minimum, or a share of 1000 that is not below it (R107). -/
theorem tripCap_inRange {plant : PlantRecord} (hp : plant.ceilingMin ≤ 1000) {capacity : Int} (hc : 0 ≤ capacity) (v : View) :
    capInRange plant (tripCap plant capacity v) := by
  unfold tripCap
  cases plant.steam with
  | none => trivial
  | some ch =>
    dsimp only
    split
    · exact ⟨le_rfl, hp⟩
    · split
      · trivial
      · next above =>
        have hshare : floorDiv (capacity * 1000) (v.reading ch).value ≤ 1000 := Int.ediv_le_of_le_mul (by omega) (by omega)
        exact ⟨le_max_right _ _, max_le hshare hp⟩

theorem setCap_tgd (s : State) : (setCap s).tgd =
    { s.tgd with cap := tripCap s.wsv.plant s.tgd.cfg.bypassCapacity s.tgd.view } := by
  unfold setCap
  dsimp only
  split
  · next h => rw [h]
  · next h => rw [h]; rfl

/-- A cause taken from ARMED leaves the guard TRIPPED with the trip cap of the view (R104, R107). -/
theorem takeCause_armed (c : Cause) (stale : Bool) {s : State} (armed : s.tgd.guard = .armed) :
    (takeCause c stale s).tgd.cfg = s.tgd.cfg ∧ (takeCause c stale s).tgd.guard = .tripped ∧
    (takeCause c stale s).tgd.cap = tripCap s.wsv.plant s.tgd.cfg.bypassCapacity s.tgd.view := by
  simp only [takeCause, armed, tripActs, setCap_tgd]
  exact ⟨rfl, rfl, rfl⟩

/-- While TRIPPED a cause changes neither the record, the guard nor the cap. -/
theorem takeCause_tripped (c : Cause) (stale : Bool) {s : State} (tripped : s.tgd.guard = .tripped) :
    (takeCause c stale s).core = s.core := by
  unfold takeCause
  split
  · next armed => exact nomatch armed.symm.trans tripped
  · split <;> rfl

theorem nextCeiling_bounds {plant : PlantRecord} (hp : 0 ≤ plant.runback ∧ 0 ≤ plant.recover) {cap : Option Cap}
    (hc : capInRange plant cap) (r : BalanceResult) {p : Int} (h : plant.ceilingMin ≤ p ∧ p ≤ 1000) :
    plant.ceilingMin ≤ nextCeiling plant r cap p ∧ nextCeiling plant r cap p ≤ 1000 := by
  have limit : plant.ceilingMin ≤ capLimit cap ∧ capLimit cap ≤ 1000 := by
    cases cap with
    | none => exact ⟨h.1.trans h.2, le_rfl⟩
    | some c => exact hc
  cases r <;> simp only [nextCeiling] <;> omega

namespace CeilingInv

variable {s t : State}

theorem of_core (h : CeilingInv s) (e : t.core = s.core) (hrx : s.mbc.mode = .config → s.lif.rx = .off → t.lif.rx = .off) :
    CeilingInv t := by
  simp only [State.core, Prod.mk.injEq] at e
  obtain ⟨hw, hm, hv, htodo, hcfg, hg, hcap⟩ := e
  obtain ⟨plant, capacity, cap, viewCap, ceiling, config⟩ := h
  refine ⟨?_, ?_, ?_, ?_, ?_, ?_⟩ <;> simp only [hw, hm, hv, htodo, hcfg, hg, hcap] <;> try assumption
  exact fun m => ⟨hrx m (config m).1, (config m).2⟩

theorem ceilingMin_le (h : CeilingInv s) : s.wsv.plant.ceilingMin ≤ 1000 := h.ceiling.1.trans h.ceiling.2

/-- In CONFIG the guard is TRIPPED (R118). -/
theorem not_config_of_armed (h : CeilingInv s) (armed : s.tgd.guard = .armed) : s.mbc.mode ≠ .config := fun m => by
  obtain ⟨-, -, tripped, -⟩ := h.config m
  exact nomatch armed.symm.trans tripped

/-- In CONFIG no snapshot waits for WSV (R38, R60). -/
theorem not_config_of_waits (h : CeilingInv s) (waits : s.todo.wsv = true) : s.mbc.mode ≠ .config := fun m => by
  obtain ⟨-, idle, -⟩ := h.config m
  exact nomatch waits.symm.trans idle

/-- Out of CONFIG the ceiling takes any value in its range. -/
theorem set (h : CeilingInv s) (hm : s.mbc.mode ≠ .config) {p : Int} (hp : s.wsv.plant.ceilingMin ≤ p ∧ p ≤ 1000) :
    CeilingInv { s with wsv := { s.wsv with ceiling := p } } :=
  ⟨h.plant, h.capacity, h.cap, h.viewCap, hp, (absurd · hm)⟩

theorem run (h : CeilingInv s) (k : WellRun s t) : CeilingInv t := by
  have lif : t.lif = s.lif := k.frame.same .lif (by decide)
  have view : t.view = s.view := k.frame.same .view (by decide)
  have todo : t.todo = s.todo := k.frame.same .todo (by decide)
  have tgd : t.tgd = s.tgd := k.frame.same .tgd (by decide)
  obtain ⟨plant, ceiling, -⟩ := k.kept
  refine ⟨?_, ?_, ?_, ?_, ?_, ?_⟩ <;> simp only [lif, view, todo, tgd, plant, ceiling, k.mbc]
  exacts [h.plant, h.capacity, h.cap, h.viewCap, h.ceiling, h.config]

theorem phases (h : CeilingInv s) (hm : s.mbc.mode ≠ .config) (hv : capInRange s.wsv.plant s.wsv.view.cap) :
    CeilingInv (wsvPhases s) := by
  have balanced := h.run (wsvBalance_run s)
  obtain ⟨-, -, rates⟩ := balanced.plant
  obtain ⟨plant, -, view⟩ := (wsvBalance_run s).kept
  rw [← plant, ← view] at hv
  have mode : (wsvBalance s).mbc.mode ≠ .config := by rwa [(wsvBalance_run s).mbc]
  refine CeilingInv.run (s := wsvCeiling (wsvBalance s)) ?_ ((wsvWells_run _).trans (wsvGrant_run _ _))
  exact balanced.set mode (nextCeiling_bounds rates hv _ balanced.ceiling)

theorem frozen (h : CeilingInv s) (hm : s.mbc.mode ≠ .config) (hv : capInRange s.wsv.plant s.wsv.view.cap) :
    CeilingInv (wsvFrozen s) := by
  unfold wsvFrozen
  refine CeilingInv.run (h.set hm ?_) (WellRun.foldl (fun s i => frozenWell_run i s) (List.finRange 16) _)
  split
  · exact h.ceiling
  · next c hc =>
    rw [hc] at hv
    exact ⟨le_min h.ceiling.1 hv.1, (min_le_left _ _).trans h.ceiling.2⟩

theorem process (h : CeilingInv s) : CeilingInv (wsvProcess s) := by
  unfold wsvProcess
  split
  · next waits =>
    have hm := h.not_config_of_waits waits
    have taken : CeilingInv { s with todo := { s.todo with wsv := false }, wsv := { s.wsv with view := s.view } } :=
      ⟨h.plant, h.capacity, h.cap, h.viewCap, h.ceiling, (absurd · hm)⟩
    dsimp only
    split
    · exact taken.phases hm h.viewCap
    · exact taken.phases hm h.viewCap
    · exact taken.frozen hm h.viewCap
    · exact taken.frozen hm h.viewCap
  · exact h

theorem cause (h : CeilingInv s) (c : Cause) (stale : Bool) : CeilingInv (takeCause c stale s) := by
  cases guard : s.tgd.guard with
  | tripped =>
    have lif : (takeCause c stale s).lif = s.lif := (takeCause_frame c stale s).same .lif (by decide)
    exact h.of_core (takeCause_tripped c stale guard) fun _ off => by rwa [lif]
  | armed =>
    have hm := h.not_config_of_armed guard
    have wsv : (takeCause c stale s).wsv = s.wsv := (takeCause_frame c stale s).same .wsv (by decide)
    have mbc : (takeCause c stale s).mbc = s.mbc := (takeCause_frame c stale s).same .mbc (by decide)
    have view : (takeCause c stale s).view = s.view := (takeCause_frame c stale s).same .view (by decide)
    obtain ⟨cfg, -, cap⟩ := takeCause_armed c stale guard
    refine ⟨?_, ?_, ?_, ?_, ?_, ?_⟩ <;> simp only [wsv, mbc, view, cfg, cap]
    exacts [h.plant, h.capacity, tripCap_inRange h.ceilingMin_le h.capacity _, h.viewCap, h.ceiling, (absurd · hm)]

/-- A PLANT record is written in CONFIG, where no cap is in force and P is 1000 (R60, R73). -/
theorem storePlant (h : CeilingInv s) (hm : s.mbc.mode = .config) {b : List Byte} {r : PlantRecord}
    (read : PlantRecord.read b = some r) : CeilingInv { s with wsv := { s.wsv with plant := r } } := by
  obtain ⟨-, -, -, cap, viewCap, ceiling⟩ := h.config hm
  have plant : 0 ≤ r.ceilingMin ∧ r.ceilingMin ≤ 1000 ∧ 0 ≤ r.runback ∧ 0 ≤ r.recover := by
    simp only [PlantRecord.read, Option.bind_eq_bind, Option.bind_eq_some_iff, Option.ite_none_right_eq_some] at read
    obtain ⟨check, -, brine, -, steam, -, ⟨hmin, hrunback, hrecover, -⟩, hr⟩ := read
    obtain rfl := Option.some.inj hr
    exact ⟨Int.natCast_nonneg _, hmin, Int.natCast_nonneg _, Int.natCast_nonneg _⟩
  refine ⟨plant, h.capacity, ?_, ?_, ?_, h.config⟩
  · simp only [cap, capInRange]
  · simp only [viewCap, capInRange]
  · simp only [ceiling]
    exact ⟨plant.2.1, le_rfl⟩

theorem storeTurbine (h : CeilingInv s) {b : List Byte} {r : TurbineRecord} (read : TurbineRecord.read b = some r) :
    CeilingInv { s with tgd := { s.tgd with cfg := r } } := by
  have capacity : 0 ≤ r.bypassCapacity := by
    simp only [TurbineRecord.read, Option.bind_eq_bind, Option.bind_eq_some_iff, Option.ite_none_right_eq_some] at read
    obtain ⟨speed, -, lube, -, gear, -, purity, -, field, -, -, hr⟩ := read
    obtain rfl := Option.some.inj hr
    exact Int.natCast_nonneg _
  exact ⟨h.plant, capacity, h.cap, h.viewCap, h.ceiling, h.config⟩

end CeilingInv

theorem keeps_ceilingInv : Keeps CeilingInv where
  quiet := CeilingInv.of_core
  wells := CeilingInv.run
  process := CeilingInv.process
  cause c stale h := h.cause c stale
  arm mode h := ⟨h.plant, h.capacity, trivial, h.viewCap, h.ceiling, fun m => nomatch mode.symm.trans m⟩
  mode hm h := ⟨h.plant, h.capacity, h.cap, h.viewCap, h.ceiling, (absurd · hm)⟩
  plant hm read h := h.storePlant hm read
  turbine read h := h.storeTurbine read
  fixed locked h := ⟨h.plant, h.capacity, h.cap, h.cap, h.ceiling, fun m => nomatch locked.symm.trans (h.config m).1⟩
  reset h := ⟨h.plant, h.capacity, trivial, trivial, ⟨h.ceilingMin_le, le_rfl⟩, fun _ => ⟨rfl, rfl, rfl, rfl, rfl, rfl⟩⟩
  power straps s := by
    let r := PlantRecord.default
    have plant : 0 ≤ r.ceilingMin ∧ r.ceilingMin ≤ 1000 ∧ 0 ≤ r.runback ∧ 0 ≤ r.recover := by decide
    have capacity : 0 ≤ TurbineRecord.default.bypassCapacity := by decide
    exact ⟨plant, capacity, trivial, trivial, ⟨plant.2.1, le_rfl⟩, fun _ => ⟨rfl, rfl, rfl, rfl, rfl, rfl⟩⟩

/-- Settles O58: the ceiling moves in WSV's job alone, within its range while the view's cap is in its own, which a trip and a
publication put there. -/
theorem ceilingInvKept : Obligations.CeilingInvKept := fun _ _ h e => keeps_ceilingInv.step h e

/-! ## WELL_CMD (R78) -/

theorem wellCmd_checksLength : ChecksLength 2 wellCmd := fun p s h => by
  unfold wellCmd
  split <;> [exact absurd rfl h; rfl]

theorem wellCmd_badIndex {w : Byte} (k : Byte) (s : State) (h : 16 ≤ w.toNat) : wellCmd [w, k] s = refuse .badIndex s := by
  simp only [wellCmd, index?_of_le h]

/-- The command byte of a command (R78); `WellCommand.ofCode_code` ties it to the model. -/
def WellCommand.code : WellCommand → Nat
  | .start => 0
  | .stop => 1
  | .clear => 2
  | .serviceOut => 3
  | .serviceIn => 4
  | .hold => 5
  | .release => 6

namespace WellCommand

theorem ofCode_code (c : WellCommand) : ofCode c.code = some c := by cases c <;> rfl

theorem exists_code {n : Nat} (h : n ≤ 6) : ∃ c : WellCommand, c.code = n := by
  have all : ∀ n < 7, ∃ c ∈ [start, stop, clear, serviceOut, serviceIn, hold, release], c.code = n := by decide
  obtain ⟨c, -, hc⟩ := all n (by omega)
  exact ⟨c, hc⟩

theorem ofCode_none {n : Nat} (h : 6 < n) : ofCode n = none := by
  unfold ofCode
  repeat rw [if_neg (by omega)]

/-! The checks 2 to 6 in terms of the command byte. -/

variable (c : WellCommand)

theorem not_modeTakes_iff (m : Mode) : (!c.modeTakes m) = true ↔
    m = .config ∨ (m = .standby ∧ c.code < 5) ∨ (m = .leaving ∧ c.code = 0) := by
  cases c <;> cases m <;> decide

theorem needsLink_iff : c.needsLink = true ↔ c.code = 0 ∨ c.code = 2 ∨ c.code = 4 := by
  cases c <;> decide

theorem not_permitted_iff (p : Permit) : (!c.permitted p) = true ↔ (c.code = 0 ∧ p.start = false) ∨
    (c.code = 2 ∧ p.clear = false) ∨ (c.code = 3 ∧ p.serviceOut = false) ∨ (c.code = 4 ∧ p.serviceIn = false) := by
  cases c <;> simp [permitted, code]

theorem stopsOnHold_iff : c.stopsOnHold = true ↔ c.code = 0 ∨ c.code = 2 ∨ c.code = 3 ∨ c.code = 4 := by
  cases c <;> decide

theorem not_onFlag_iff : (!c.onFlag) = true ↔ c.code < 5 := by
  cases c <;> decide

end WellCommand

/-- What a command byte has the well do (R78). -/
theorem wellAct_eq (c : WellCommand) (i : WellNo) (s : State) : wellAct c i s = match c.code with
    | 0 => wellStart i s
    | 1 => wellStop i s
    | 2 => wellClear i s
    | 3 => wellServiceOut i s
    | 4 => wellServiceIn i s
    | 5 => wellHold true i s
    | _ => wellHold false i s := by
  cases c <;> rfl

/-- A command of WELL_CMD judged on a well: what is answered, and the state after it. -/
def judgeCommand (i : WellNo) (s : State) (c : WellCommand) : Status × State :=
  match wellRefusal c i s with
  | some st => (st, s)
  | none => wellAct c i s

/-- WELL_CMD on a well: a byte that is no command, or a command judged (R78). -/
theorem wellCmd_well {w : Byte} (k : Byte) (s : State) (h : w.toNat < 16) : wellCmd [w, k] s =
    wellAnswer ⟨w.toNat, h⟩ (((WellCommand.ofCode k.toNat).map (judgeCommand ⟨w.toNat, h⟩ s)).getD (.badValue, s)) := by
  simp only [wellCmd, index?_of_lt h]
  cases WellCommand.ofCode k.toNat with
  | none => rfl
  | some c =>
    simp only [judgeCommand, Option.map_some, Option.getD_some]
    cases wellRefusal c ⟨w.toNat, h⟩ s <;> rfl

/-- The checks 2 to 6 and the command, by its command byte (R78). -/
theorem judgeCommand_eq (i : WellNo) (s : State) (c : WellCommand) : judgeCommand i s c =
    let n := c.code
    let x := s.well i
    if s.mbc.mode = .config ∨ (s.mbc.mode = .standby ∧ n < 5) ∨ (s.mbc.mode = .leaving ∧ n = 0) then (.wrongMode, s)
    else if s.mbc.link = .silent ∧ (n = 0 ∨ n = 2 ∨ n = 4) then (.linkLocked, s)
    else if (n = 0 ∧ x.permit.start = false) ∨ (n = 2 ∧ x.permit.clear = false) ∨ (n = 3 ∧ x.permit.serviceOut = false) ∨
      (n = 4 ∧ x.permit.serviceIn = false) then (.notPermitted, s)
    else if x.hold = true ∧ (n = 0 ∨ n = 2 ∨ n = 3 ∨ n = 4) then (.onHold, s)
    else if x.cfg.role = .unused ∧ n < 5 then (.wrongState, s)
    else match n with
      | 0 => wellStart i s
      | 1 => wellStop i s
      | 2 => wellClear i s
      | 3 => wellServiceOut i s
      | 4 => wellServiceIn i s
      | 5 => wellHold true i s
      | _ => wellHold false i s := by
  simp only [judgeCommand, wellRefusal, c.not_modeTakes_iff, c.needsLink_iff, c.not_permitted_iff, c.stopsOnHold_iff,
    c.not_onFlag_iff, wellAct_eq]
  split_ifs <;> rfl

/-- Settles O32: the checks in order, each said of the command byte, and the two bytes that every reply to a well carries. -/
theorem wellCommandJudged : Obligations.WellCommandJudged := by
  intro r s c ready hc
  have row : exec c s = live s (goodFrame 0x0B wellCmd r) := by rcases hc with rfl | rfl | rfl | rfl | rfl | rfl | rfl <;> rfl
  refine ⟨exec_badLength ready row wellCmd_checksLength, fun w k hp h => exec_replied ready row (hp ▸ wellCmd_badIndex k _ h),
    fun w k hp h => ?_⟩
  intro i x n reply
  have hreply (out : Status × State) : fillBuffer 0x0B r (wellAnswer i out) = reply out := rfl
  rw [exec_request ready row, hp, wellCmd_well k _ h, hreply]
  by_cases hn : 6 < n
  · rw [WellCommand.ofCode_none hn, if_pos hn]
    rfl
  · obtain ⟨c, hcode⟩ := WellCommand.exists_code (not_lt.mp hn)
    have hcommand : WellCommand.ofCode k.toNat = some c := (congrArg _ hcode).symm.trans c.ofCode_code
    have judged := judgeCommand_eq i s.hears c
    rw [hcode] at judged
    rw [if_neg hn, hcommand, Option.map_some, Option.getD_some]
    exact congrArg _ (congrArg reply judged)

/-! ## The commands (R80 to R85, R87) -/

/-- The stagger timer after the slot has been released: it starts, unless it runs or its time is 0 (R87). -/
theorem releaseSlot_eq (s : State) : releaseSlot s = { s with wsv := { s.wsv with
    slot := none
    stagger := if s.wsv.stagger = none ∧ s.wsv.plant.staggerMs ≠ 0 then some ⟨s.now, s.wsv.plant.staggerMs * 1000⟩
      else s.wsv.stagger } } := by
  unfold releaseSlot
  cases s.wsv.stagger with
  | some t => rfl
  | none => by_cases h : s.wsv.plant.staggerMs = 0 <;> simp [h, State.timerMs]

theorem stopWell_eq (why : Int) (i : WellNo) (s : State) : stopWell why i s =
    raise .wellStopped i.val why (deliver (.wellSpeed i) 0 (deliver (.wellRun i) 0
      { s with wsv := { s.wsv with
          queue := s.wsv.queue.erase i
          wells := s.wsv.wells.set i s.wsv.wells[i].stoppedPending } })) := by
  rw [stopWell, deliverWell_leave_stopped]

theorem join_eq (v : Wsv) (i : WellNo) : v.join i =
    if v.wells[i].cfg.role = .reinjection then v.queue.takeWhile v.reinjects ++ [i] ++ v.queue.dropWhile v.reinjects
    else v.queue ++ [i] := by
  simp only [Wsv.join, Wsv.reinjects, decide_eq_true_eq]

/-- Settles O33, command by command and state by state: the well put, the queue joined or left, the slot released. -/
theorem wellCommandsAct : Obligations.WellCommandsAct := by
  intro i s v w reinjects q place put stopped released
  have hq : s.wsv.join i = q := join_eq v i
  have hstop : stopWell 0 i s = stopped v := stopWell_eq 0 i s
  have hrelease : stopWell 0 i (releaseSlot s) = stopped released := by
    rw [stopWell_eq, releaseSlot_eq]
    rfl
  have hstate : (s.well i).state = w.state := rfl
  refine ⟨?start, ?stop, ?clear, ?serviceOut, ?serviceIn, fun b => rfl⟩
  case start =>
    unfold wellStart
    rw [hq, hstate]
    rcases w.state with _ | _ | _ <;> rfl
  case stop =>
    unfold wellStop
    rw [hstop, hrelease, hstate]
    rcases w.state with _ | _ | _ <;> rfl
  case clear =>
    unfold wellClear
    rw [hstate]
    rcases w.state with _ | _ | _ <;> rfl
  case serviceOut =>
    unfold wellServiceOut
    rw [hstate]
    rcases w.state with _ | _ | _ <;> rfl
  case serviceIn =>
    unfold wellServiceIn
    rw [hstate]
    rcases w.state with _ | _ | _ <;> rfl

/-! ## Demands (R74) -/

/-- The ceiling bounds the target of a production well (R74). -/
theorem target_eq (v : Wsv) (i : WellNo) : v.target i =
    if v.wells[i].cfg.role = .production then v.view.active.speeds[i] * v.ceiling / 1000 else v.view.active.speeds[i] := by
  unfold Wsv.target floorDiv
  cases v.wells[i].cfg.role <;> rfl

theorem runDemand_eq (v : Wsv) (i : WellNo) : v.runDemand i = match v.wells[i].state with
    | some .starting | some .running => 1
    | _ => 0 := by
  unfold Wsv.runDemand
  rcases v.wells[i].state with _ | _ | _ <;> rfl

theorem speedDemand_eq (v : Wsv) (i : WellNo) : v.speedDemand i =
    let target := if v.wells[i].cfg.role = .production then v.view.active.speeds[i] * v.ceiling / 1000
      else v.view.active.speeds[i]
    match v.wells[i].state with
    | some .starting => min v.wells[i].cfg.startSpeed target
    | some .running => target
    | _ => 0 := by
  have target := target_eq v i
  unfold Wsv.speedDemand
  generalize v.target i = x at target ⊢
  subst target
  rcases v.wells[i].state with _ | _ | _ <;> rfl

/-- A well put in place and its demands delivered. -/
theorem deliverWell_setWell (i : WellNo) (w : Well) (s : State) : deliverWell i (s.setWell i w) =
    let run := (s.setWell i w).wsv.runDemand i
    let speed := (s.setWell i w).wsv.speedDemand i
    deliver (.wellSpeed i) speed (deliver (.wellRun i) run
      { s with wsv := { s.wsv with wells := s.wsv.wells.set i { w with runDemand := run, speedDemand := speed } } }) := by
  unfold deliverWell
  rw [setWell_well]
  simp only [State.setWell, Vector.set_set]

/-! ## The arbiter and the timers (R86, R87, R90) -/

theorem eligible_iff (v : Wsv) (i : WellNo) : v.eligible i = true ↔
    v.wells[i].cfg.role = .reinjection ∨ (v.deficit = false ∧ v.view.cap = none) := by
  simp [Wsv.eligible, Wsv.reinjects]

theorem arbiter_free {s : State} (h : s.mbc.mode = .supervise ∧ s.wsv.slot = none ∧ s.wsv.stagger = none) :
    arbiter s = match s.wsv.queue.find? s.wsv.eligible with
      | none => s
      | some i => grant i s := if_pos h

/-- The first eligible well of the queue is found. -/
theorem find_eligible {v : Wsv} {before after : List WellNo} {i : WellNo} (queue : v.queue = before ++ i :: after)
    (passed : ∀ j ∈ before, ¬v.eligible j = true) (eligible : v.eligible i = true) :
    v.queue.find? v.eligible = some i ∧ v.queue.erase i = before ++ after := by
  have hi : i ∉ before := fun h => passed i h eligible
  refine ⟨List.find?_eq_some_iff_append.mpr ⟨eligible, before, after, queue, fun j hj => ?_⟩, ?_⟩
  · simpa using passed j hj
  · rw [queue, List.erase_append_right _ hi, List.erase_cons_head]

/-- The grant, with the demands of the STARTING well (R74, R86). -/
theorem grant_eq (i : WellNo) (s : State) : grant i s =
    let v := s.wsv
    let w := v.wells[i]
    let target := if w.cfg.role = .production then v.view.active.speeds[i] * v.ceiling / 1000 else v.view.active.speeds[i]
    let speed := min w.cfg.startSpeed target
    raise .wellGranted i.val speed (deliver (.wellSpeed i) speed (deliver (.wellRun i) 1
      { s with wsv := { v with
          queue := v.queue.erase i, slot := some i
          wells := v.wells.set i { w with
            state := some .starting, startTimer := some ⟨s.now, w.cfg.startMs * 1000⟩, runDemand := 1,
            speedDemand := speed } } })) := by
  unfold grant
  dsimp only
  rw [deliverWell_setWell]
  simp [runDemand_eq, speedDemand_eq, State.setWell, State.well, State.timerMs]

/-- Settles O34: the arbiter by the first eligible well of the queue, and the two expiries by whether their timer runs. -/
theorem startsGranted : Obligations.StartsGranted := by
  refine ⟨fun s => ?arbiter, fun s held =>
    ⟨fun h => ?noStagger, fun t h => ?stagger, fun i h => ?noStart, fun i t hs ht => ?start⟩⟩
  case arbiter =>
    intro v eligible free
    have heligible (i : WellNo) : eligible i ↔ v.eligible i = true := (eligible_iff v i).symm
    refine ⟨fun h => ?none, fun before i after hfree queue passed first => ?first⟩
    case none =>
      by_cases hfree : free
      · have hnone : s.wsv.queue.find? s.wsv.eligible = none :=
          List.find?_eq_none.mpr fun i hi => mt (heligible i).mpr (h.resolve_left (not_not.mpr hfree) i hi)
        rw [arbiter_free hfree, hnone]
      · exact if_neg hfree
    case first =>
      obtain ⟨found, erased⟩ := find_eligible (v := s.wsv) queue (fun j hj => mt (heligible j).mpr (passed j hj))
        ((heligible i).mp first)
      rw [arbiter_free hfree, found]
      dsimp only
      rw [grant_eq]
      dsimp only
      rw [erased]
  case noStagger =>
    have h' : staggerExpiry s = s := by simp only [staggerExpiry, h]
    exact (live_next _ held).trans (congrArg _ h')
  case stagger =>
    have h' : staggerExpiry s = arbiter { s.reachEnd t with wsv := { s.wsv with stagger := none } } := by
      simp only [staggerExpiry, h]
      rfl
    exact (live_next _ held).trans (congrArg _ h')
  case noStart =>
    have h' : startExpiry i s = s := by
      unfold startExpiry
      split
      · next t state timer => exact (h.elim (· state) fun none => nomatch none.symm.trans timer).elim
      · rfl
    exact (live_next _ held).trans (congrArg _ h')
  case start =>
    have h' : startExpiry i s = arbiter (tripWell .startFail i (s.reachEnd t)) := by
      have hs' : (s.well i).state = _ := hs
      have ht' : (s.well i).startTimer = _ := ht
      simp only [startExpiry, hs', ht']
    exact (live_next _ held).trans (congrArg _ h')

/-! ## Trips and the tests of a snapshot (R87 to R93) -/

/-- A well outside STARTING and RUNNING is put in place, and an event and demands of 0 follow. -/
theorem deliverWell_raise_idle (k : EventKind) (a b : Int) (i : WellNo) {w : Well} (s : State)
    (idle : w.state ≠ some .starting ∧ w.state ≠ some .running) : deliverWell i (raise k a b (s.setWell i w)) =
    deliver (.wellSpeed i) 0 (deliver (.wellRun i) 0 (raise k a b
      { s with wsv := { s.wsv with wells := s.wsv.wells.set i { w with runDemand := 0, speedDemand := 0 } } })) := by
  have hstate : (raise k a b (s.setWell i w)).wsv.wells[i].state = w.state := by simp [State.setWell]
  have hrun : (raise k a b (s.setWell i w)).wsv.runDemand i = 0 := by
    rw [runDemand_eq, hstate]
    split
    · next h => exact absurd h idle.1
    · next h => exact absurd h idle.2
    · rfl
  have hspeed : (raise k a b (s.setWell i w)).wsv.speedDemand i = 0 := by
    rw [speedDemand_eq, hstate]
    dsimp only
    split
    · next h => exact absurd h idle.1
    · next h => exact absurd h idle.2
    · rfl
  unfold deliverWell
  rw [hrun, hspeed, raise_well, setWell_well]
  simp only [State.setWell, raise_wsv, Vector.set_set]
  rfl

theorem pushTrip_length (windowMin : Nat) (now : Time) (h : List Time) : (pushTrip windowMin now h).length ≤ 4 := by
  simp only [pushTrip, List.length_append, List.length_drop, List.length_singleton]
  omega

/-- A trip, with the demands of the state that it leaves the well in (R74, R93). -/
theorem tripWell_eq (c : TripCause) (i : WellNo) (s : State) : tripWell c i s =
    let w := s.wsv.wells[i]
    let history := pushTrip w.cfg.windowMin s.now w.history
    let locked := w.cfg.tripLimit ≤ history.length
    let u : Wsv := if w.state = some .starting then (releaseSlot s).wsv else s.wsv
    deliver (.wellSpeed i) 0 (deliver (.wellRun i) 0
      (raise (if locked then .wellLockout else .wellTrip) i.val (TripCause.code (some c))
        { s with wsv := { u with wells := s.wsv.wells.set i { w with
            state := some (if locked then .lockedOut else .tripped), history := history, lastTrip := some c, intakeCount := 0,
            flowBlind := false, intakeBlind := false, motorBlind := false, startTimer := none, runDemand := 0,
            speedDemand := 0 } } })) := by
  unfold tripWell
  dsimp only
  rw [deliverWell_raise_idle]
  · by_cases starting : s.wsv.wells[i].state = some .starting
    · have hwell : (s.well i).state = some .starting := starting
      simp only [decide_eq_true_eq, if_pos starting, if_pos hwell]
      rfl
    · have hwell : (s.well i).state ≠ some .starting := starting
      simp only [decide_eq_true_eq, if_neg starting, if_neg hwell]
      rfl
  · dsimp only [Well.leave]
    split <;> exact ⟨nofun, nofun⟩

theorem deliverWell_eq (i : WellNo) (s : State) : deliverWell i s =
    let v := s.wsv
    let w := v.wells[i]
    let target := if w.cfg.role = .production then v.view.active.speeds[i] * v.ceiling / 1000 else v.view.active.speeds[i]
    let run : Int := match w.state with
      | some .starting | some .running => 1
      | _ => 0
    let speed : Int := match w.state with
      | some .starting => min w.cfg.startSpeed target
      | some .running => target
      | _ => 0
    deliver (.wellSpeed i) speed (deliver (.wellRun i) run
      { s with wsv := { v with wells := v.wells.set i { w with runDemand := run, speedDemand := speed } } }) := by
  unfold deliverWell
  rw [runDemand_eq, speedDemand_eq]
  rfl

theorem usable_iff (r : Reading) : r.usable = true ↔ r.quality ≠ .stale := by
  unfold Reading.usable
  cases r.quality <;> decide

theorem holds_iff (r : Reading) (p : Int → Prop) [DecidablePred p] :
    (r.holds fun x => decide (p x)) = true ↔ r.quality ≠ .stale ∧ p r.value := by
  rw [Reading.holds, Bool.and_eq_true, usable_iff, decide_eq_true_iff]

/-- A reading taken for a well: a usable one clears the mark, a STALE one sets it and is reported once (R91). -/
theorem noteBlind_eq (k : EventKind) (i : WellNo) (x : Reading) (marked : Bool) (put : Bool → Well → Well) (s : State) :
    noteBlind k i x marked put s =
      if x.quality ≠ .stale then s.setWell i (put false s.wsv.wells[i])
      else if marked then s else raise k i.val 0 (s.setWell i (put true s.wsv.wells[i])) := by
  unfold noteBlind
  exact if_congr (usable_iff x) rfl rfl

theorem motorTrip_iff (v : Wsv) (i : WellNo) : v.motorTrip i = true ↔
    ∃ ch, v.wells[i].cfg.motor = some ch ∧ v.view.chans[ch].quality ≠ .stale ∧ v.view.chans[ch].value = 1 := by
  unfold Wsv.motorTrip
  cases v.wells[i].cfg.motor with
  | none => simp
  | some c =>
    simp only [Option.some.injEq, exists_eq_left']
    exact holds_iff (v.view.reading c) (· = 1)

theorem flowing_iff (v : Wsv) (i : WellNo) : v.flowing i = true ↔
    v.view.chans[v.wells[i].cfg.flow].quality ≠ .stale ∧ v.wells[i].cfg.minFlow ≤ v.view.chans[v.wells[i].cfg.flow].value :=
  holds_iff (v.view.reading v.wells[i].cfg.flow) (v.wells[i].cfg.minFlow ≤ ·)

/-- The intake count stays at a STALE reading, counts a low one and starts again at any other (R92). -/
theorem intakeNext_eq (v : Wsv) (i : WellNo) : v.intakeNext i =
    let w := v.wells[i]
    let intake := v.view.chans[w.cfg.intake]
    if intake.quality = .stale then w.intakeCount
    else if intake.value < w.cfg.intakeLimit then min 255 (w.intakeCount + 1) else 0 := by
  have stale : (!(v.view.reading v.wells[i].cfg.intake).usable) = true ↔
      v.view.chans[v.wells[i].cfg.intake].quality = .stale := by
    rw [Bool.not_eq_true', ← Bool.not_eq_true, usable_iff, not_not]
    rfl
  unfold Wsv.intakeNext persist
  simp only [stale, decide_eq_true_eq]
  rfl

/-- A STARTING well enters RUNNING, and the slot is released (R87, R89). -/
theorem startRunning_eq (i : WellNo) (s : State) : startRunning i s =
    raise .wellRunning i.val s.wsv.view.chans[s.wsv.wells[i].cfg.flow].value { s with wsv := { s.wsv with
      slot := none
      stagger := if s.wsv.stagger = none ∧ s.wsv.plant.staggerMs ≠ 0 then some ⟨s.now, s.wsv.plant.staggerMs * 1000⟩
        else s.wsv.stagger
      wells := s.wsv.wells.set i { s.wsv.wells[i] with state := some .running, startTimer := none, intakeCount := 0 } } } := by
  unfold startRunning
  rw [releaseSlot_eq]
  rfl

/-- Settles O35: the trip, the demands, and the tests by the motor channel first. -/
theorem wellsTestedAndTripped : Obligations.WellsTestedAndTripped := by
  refine ⟨fun c i s => ?trip, deliverWell_eq, fun i s => ⟨rfl, rfl, ?motor⟩, fun i s =>
    ⟨fun w => rfl, ?blind, ?tests, ?process⟩⟩
  case trip =>
    refine ⟨pushTrip_length _ _ _, ?_⟩
    rw [tripWell_eq, releaseSlot_eq]
    cases c <;> rfl
  case motor =>
    have hmotor : (s.well i).cfg.motor = s.wsv.wells[i].cfg.motor := rfl
    unfold noteMotor
    rw [hmotor]
    cases s.wsv.wells[i].cfg.motor <;> rfl
  case blind => exact fun k x marked put => noteBlind_eq k i x marked put s
  case tests =>
    intro s1 w tripped s2 flow s3 w3 intake n s4
    have htripped : s1.wsv.motorTrip i = true ↔ tripped := motorTrip_iff s1.wsv i
    have hintake : s3.wsv.intakeNext i = n := intakeNext_eq s3.wsv i
    refine ⟨fun h => ⟨if_pos (htripped.mpr h), if_pos (htripped.mpr h)⟩, fun h => ?starting, fun h => ?running⟩
    case starting =>
      have hmodel : testStarting i s = if s2.wsv.flowing i = true then startRunning i s2 else s2 := if_neg (mt htripped.mp h)
      rw [hmodel, startRunning_eq]
      exact if_congr (flowing_iff s2.wsv i) rfl rfl
    case running =>
      have hmodel : testRunning i s =
          let s4 := s3.setWell i { s3.well i with intakeCount := s3.wsv.intakeNext i }
          if (s4.well i).cfg.intakePersistence ≤ (s4.well i).intakeCount then tripWell .lowIntake i s4 else s4 :=
        if_neg (mt htripped.mp h)
      rw [hmodel]
      dsimp only
      rw [setWell_well, hintake]
      rfl
  case process =>
    have hstate : (s.well i).state = s.wsv.wells[i].state := rfl
    unfold processWell
    rw [hstate]
    rcases s.wsv.wells[i].state with _ | _ | _ <;> rfl

/-! ## WSV at a snapshot (R76, R77, R94 to R96) -/

/-- The phases leave the view of the snapshot in place. -/
theorem wsvWells_view (s : State) : (wsvWells (wsvCeiling (wsvBalance s))).wsv.view = s.wsv.view :=
  (wsvWells_run _).kept.2.2.trans (wsvBalance_run s).kept.2.2

theorem wsvPhases_eq (s : State) : wsvPhases s =
    let t := wsvWells (wsvCeiling (wsvBalance s))
    if s.wsv.view.mode = .supervise ∨ (s.wsv.slot ≠ none ∧ t.wsv.slot = none) then arbiter t else t := by
  have view := wsvWells_view s
  unfold wsvPhases
  generalize wsvWells (wsvCeiling (wsvBalance s)) = t at view ⊢
  unfold wsvGrant
  rw [view]
  exact if_congr (or_congr_right (and_congr_left' Option.isSome_iff_ne_none)) rfl rfl

theorem frozenWell_eq (s : State) (i : WellNo) : frozenWell s i = if s.wsv.wells[i].state = none then s else deliverWell i s := by
  have hstate : (s.well i).state = s.wsv.wells[i].state := rfl
  unfold frozenWell
  rw [hstate]
  cases s.wsv.wells[i].state <;> rfl

/-! ## Balance and ceiling (R94 to R96) -/

/-- The share of a well: none outside REINJECTION and RUNNING, and derated where its point is in ALARM (R94). -/
theorem share_eq (v : View) (w : Well) : w.share v =
    if w.cfg.role = .reinjection ∧ w.state = some .running then
      roundDiv (w.cfg.rated * (match w.cfg.point with
        | none => 1000
        | some p => if v.points[p].state = .alarm ∧ v.points[p].validity ≠ .invalid then w.cfg.derate else 1000)) 1000
    else 0 := by
  unfold Well.share
  cases w.cfg.point with
  | none => rfl
  | some p => simp only [PointResult.alarmed, decide_eq_true_eq]

theorem compareFlow_deficit_iff (f c threshold : Int) : compareFlow f c threshold = .deficit ↔ c < f := by
  unfold compareFlow
  split_ifs with above below
  · exact iff_of_true rfl above
  · exact iff_of_false nofun above
  · exact iff_of_false nofun above

/-- The result of a comparison taken: the flag says whether the flow is above the capacity (R95). -/
theorem takeResult_compareFlow (f c threshold : Int) (s : State) : takeResult f (compareFlow f c threshold) s =
    let isNow := decide (c < f)
    raiseIf (s.wsv.deficit && !isNow) .wellDeficitEnd 0 0 (raiseIf (!s.wsv.deficit && isNow) .wellDeficit 0 (f - s.wsv.capacity)
      { s with wsv := { s.wsv with result := compareFlow f c threshold, deficit := isNow, brineMark := false } }) := by
  have isNow : decide (compareFlow f c threshold = .deficit) = decide (c < f) :=
    decide_eq_decide.mpr (compareFlow_deficit_iff f c threshold)
  unfold takeResult
  rw [isNow]

section balance

variable {s : State}

theorem wsvBalance_unchecked (h : s.wsv.plant.check = false ∨ s.wsv.plant.brine = none) :
    wsvBalance s = { s with wsv := { s.wsv with result := .notComputed } } := by
  have hnone : (if s.wsv.plant.check then s.wsv.plant.brine else none) = none := by
    rcases h with h | h <;> simp [h]
  unfold wsvBalance
  rw [hnone]

/-- The flow, the capacity and the threshold of a check (R94, R95). -/
theorem wsvBalance_checked {ch : ChannelNo} (check : s.wsv.plant.check = true) (brine : s.wsv.plant.brine = some ch) :
    wsvBalance s =
      let c := s.wsv.sumShares
      let threshold := roundDiv (c * (1000 - s.wsv.plant.margin)) 1000
      let t : State := { s with wsv := { s.wsv with capacity := c, threshold := threshold } }
      let f := s.wsv.view.reading ch
      if f.usable then takeResult f.value (compareFlow f.value c threshold) t else takeHeld t := by
  unfold wsvBalance
  rw [check, brine]
  rfl

end balance

theorem nextCeiling_eq (plant : PlantRecord) (r : BalanceResult) (cap : Option Cap) (p : Int) :
    nextCeiling plant r cap p = match r with
      | .deficit => min (capLimit cap) (max (p - plant.runback) plant.ceilingMin)
      | .surplus => min (capLimit cap) (p + plant.recover)
      | _ => min (capLimit cap) p := by
  cases r <;> rfl

/-- Settles O36: the job by the mode of the snapshot, the balance by its channel, and the ceiling by the result. -/
theorem wsvSnapshotProcessed : Obligations.WsvSnapshotProcessed := by
  refine ⟨fun s held => ?job, fun s => ?balance, fun s => ?ceiling⟩
  case job =>
    intro demands
    rw [exec_wsvProcessSnapshot held]
    refine ⟨fun h => ?idle, fun h => ?_⟩
    case idle => rw [wsvProcess, if_neg (by simp [h])]
    intro s1 p
    have taken : wsvProcess s = match s.view.mode with
        | .supervise => wsvPhases s1
        | .leaving => wsvPhases s1
        | .standby => wsvFrozen s1
        | .config => wsvFrozen s1 := if_pos h
    refine ⟨fun mode => ?inStandby, fun mode => ?inPhases⟩
    case inStandby =>
      have hdemands : (fun t i => if t.wsv.wells[i].state = none then t else demands t i) = frozenWell := by
        funext t i
        exact (if_congr Iff.rfl rfl (deliverWell_eq i t).symm).trans (frozenWell_eq t i).symm
      rw [taken, mode, hdemands]
      rfl
    case inPhases =>
      have hphases : wsvProcess s = wsvPhases s1 := by
        rw [taken]
        rcases mode with mode | mode <;> rw [mode]
      have hgrant := wsvPhases_eq s1
      dsimp only at hgrant
      rw [hphases, hgrant]
      intro s2
      have hwells : wsvWells (wsvCeiling (wsvBalance s1)) = s2 := rfl
      rw [hwells]
  case balance =>
    intro v shares c threshold
    have hc : s.wsv.sumShares = c := by
      simp only [c, shares, Wsv.sumShares]
      exact congrArg List.sum (List.map_congr_left fun w _ => share_eq _ w)
    refine ⟨wsvBalance_unchecked, fun ch check brine => ?_⟩
    intro f s1 isNow
    have hchecked := wsvBalance_checked check brine
    rw [hc] at hchecked
    refine ⟨fun stale => ?stale, fun usable => ?usable⟩
    case stale =>
      rw [hchecked]
      exact if_neg (mt (usable_iff _).mp (not_not.mpr stale))
    case usable =>
      rw [hchecked]
      exact (if_pos ((usable_iff _).mpr usable)).trans (takeResult_compareFlow _ _ _ _)
  case ceiling =>
    unfold wsvCeiling
    rw [nextCeiling_eq]
    rfl

end Sys2Proof.Machine

/-! PROOFS. The turbine guard: the walk over the permissive chain and the unbroken run it keeps, a cause taken, TGD at a snapshot,
and TURBINE_CMD (R101 to R118). -/

namespace Sys2Proof.Machine

/-! ## STALE readings (R31) -/

theorem usable_eq (r : Reading) : r.usable = decide (r.quality ≠ .stale) := by
  rw [Bool.eq_iff_iff, usable_iff, decide_eq_true_iff]

theorem not_usable_iff (r : Reading) : (!r.usable) = true ↔ r.quality = .stale := by
  rw [Bool.not_eq_true', ← Bool.not_eq_true, usable_iff, not_not]

/-- A reading that is STALE or beyond a limit. -/
theorem beyond_iff (r : Reading) (p : Prop) [Decidable p] : (!r.usable || decide p) = true ↔ r.quality = .stale ∨ p := by
  rw [Bool.or_eq_true, not_usable_iff, decide_eq_true_iff]

/-! ## A trip cause (R102 to R107, R115) -/

theorem Tgd.activeNow_field (g : Tgd) (blind : Bool) : g.activeNow blind .field = true ↔
    ∃ n, g.cfg.field = some n ∧ (g.view.chans[n].quality = .stale ∨ g.view.chans[n].value = 1) := by
  unfold activeNow
  cases g.cfg.field with
  | none => simp
  | some n =>
    simp only [Option.some.injEq, exists_eq_left']
    exact beyond_iff _ _

/-- The parameter of TRIP and CAUSE (R104). -/
theorem causeParam_eq (c : Cause) (stale : Bool) : causeParam c stale = c.code + if stale then 256 else 0 := by
  cases stale <;> rfl

theorem tripCap_eq (plant : PlantRecord) (capacity : Int) (v : View) : tripCap plant capacity v =
    match plant.steam with
    | none => none
    | some ch =>
      if v.chans[ch].quality = .stale then some ⟨plant.ceilingMin, true⟩
      else if v.chans[ch].value ≤ capacity then none
      else some ⟨max (capacity * 1000 / v.chans[ch].value) plant.ceilingMin, false⟩ := by
  unfold tripCap
  cases plant.steam with
  | none => rfl
  | some ch => exact if_congr (not_usable_iff _) rfl rfl

/-- A cause while ARMED: the trip with its stamp and count, then the acts of R105. -/
theorem takeCause_of_armed (c : Cause) (stale : Bool) {s : State} (armed : s.tgd.guard = .armed) : takeCause c stale s =
    tripActs (raise .turbTrip 0 (causeParam c stale) { s with tgd := { s.tgd with
      guard := .tripped, first := some c, causes := [c], tripStamp := s.now, tripCount := s.tgd.tripCount + 1 } }) := by
  unfold takeCause
  split
  · rfl
  · next tripped => exact nomatch armed.symm.trans tripped

/-- A cause while TRIPPED joins the set once (R104). -/
theorem takeCause_of_tripped (c : Cause) (stale : Bool) {s : State} (tripped : s.tgd.guard = .tripped) : takeCause c stale s =
    if c ∈ s.tgd.causes then s
    else raise .turbCause 0 (causeParam c stale) { s with tgd := { s.tgd with causes := s.tgd.causes ++ [c] } } := by
  unfold takeCause
  split
  · next armed => exact nomatch armed.symm.trans tripped
  · rfl

/-- The record and the view that TGD works on. -/
def Tgd.inputs (g : Tgd) : TurbineRecord × View := (g.cfg, g.view)

/-- A cause taken reaches neither what TGD works on nor the permissive chain. -/
theorem takeCause_keeps (c : Cause) (stale : Bool) (s : State) :
    (takeCause c stale s).tgd.inputs = s.tgd.inputs ∧ (takeCause c stale s).tgd.chain = s.tgd.chain := by
  cases guard : s.tgd.guard with
  | armed =>
    rw [takeCause_of_armed c stale guard, tripActs, setCap_tgd]
    exact ⟨rfl, rfl⟩
  | tripped =>
    rw [takeCause_of_tripped c stale guard]
    split <;> exact ⟨rfl, rfl⟩

theorem takeCause_inputs (c : Cause) (stale : Bool) (s : State) : (takeCause c stale s).tgd.inputs = s.tgd.inputs :=
  (takeCause_keeps c stale s).1

theorem takeCause_chain (c : Cause) (stale : Bool) (s : State) : (takeCause c stale s).tgd.chain = s.tgd.chain :=
  (takeCause_keeps c stale s).2

/-- Settles O37: the causes active now by their readings, and a cause taken by the guard state, from ARMED act by act. -/
theorem causeTaken : Obligations.CauseTaken := by
  refine ⟨fun g blind => ⟨beyond_iff _ _, beyond_iff _ _, beyond_iff _ _, g.activeNow_field blind, rfl, rfl, rfl⟩, ?_⟩
  intro c stale s g code param bypass s1 s2 s3 cap s4
  have hparam : causeParam c stale = param := by
    rw [causeParam_eq]
    cases c <;> rfl
  refine ⟨fun armed => ?armed, fun tripped fresh => ?joins, fun tripped old => ?stays⟩
  case armed =>
    have hcap : tripCap s3.wsv.plant s3.tgd.cfg.bypassCapacity s3.tgd.view = cap := tripCap_eq _ _ _
    have htrip : takeCause c stale s = setCap s3 := by
      rw [takeCause_of_armed c stale armed, hparam]
      rfl
    rw [htrip, setCap, hcap]
    rfl
  case joins =>
    rw [takeCause_of_tripped c stale tripped, hparam]
    exact if_neg fresh
  case stays =>
    rw [takeCause_of_tripped c stale tripped]
    exact if_pos old

/-! ## One step of the walk over the permissive chain (R109, R110) -/

namespace StepState

/-- A step that has begun fails where its condition is not met (R110). -/
def fails (st : StepState) (met : Bool) : Bool := decide (st ≠ .incomplete) && !met

/-- A step's state after the walk, given whether it is lost, whether every earlier step is COMPLETE, its condition and its hold
in seconds (R109); `walkStep_unlost` ties it to the model. -/
def next (now : Time) (lost before met : Bool) (hold : Nat) (st : StepState) : StepState :=
  if lost then .incomplete
  else if st ≠ .incomplete then st
  else if met && before then (if hold = 0 then .complete else .timing ⟨now, hold * 1000000⟩)
  else .incomplete

/-- The event of step k, given whether an earlier step is lost, whether the step itself is, and its states before and after the
walk (R109, R110); `walkStep_unlost` ties it to the model. -/
def note (k : Int) (earlier lost : Bool) (st n : StepState) : List Report :=
  if earlier then []
  else if lost then [⟨.turbStepLost, k, if decide (st = .complete) then 2 else 1⟩]
  else if decide (n = .complete) && decide (st = .incomplete) then [⟨.turbStepDone, k, 0⟩]
  else []

section next

variable {now : Time} {lost before met : Bool} {hold : Nat} {st : StepState}

theorem next_of_begun (unlost : lost = false) (begun : st ≠ .incomplete) : st.next now lost before met hold = st := by
  subst unlost
  exact if_pos begun

theorem next_of_complete (unlost : lost = false) (h : st = .complete) : st.next now lost before met hold = .complete :=
  (next_of_begun unlost (h ▸ nofun)).trans h

/-- A step stands after the walk only where it is not lost, and where it stood before or every earlier step is COMPLETE. -/
theorem of_next (h : st.next now lost before met hold ≠ .incomplete) :
    lost = false ∧ (st ≠ .incomplete ∨ before = true) := by
  unfold next at h
  split at h
  · exact absurd rfl h
  · next unlost =>
    refine ⟨Bool.not_eq_true _ ▸ unlost, ?_⟩
    split at h
    · next begun => exact .inl begun
    · split at h
      · next taken => exact .inr (Bool.and_eq_true_iff.mp taken).2
      · exact absurd rfl h

/-- A step without a hold never begins TIMING. -/
theorem next_instant (h : st = .incomplete ∨ st = .complete) :
    st.next now lost before met 0 = .incomplete ∨ st.next now lost before met 0 = .complete := by
  unfold next
  repeat' split
  · exact .inl rfl
  · exact h
  · exact .inr rfl
  · contradiction
  · exact .inl rfl

end next

end StepState

section walkStep

variable {now : Time} {k : Int} {met : Bool} {hold : Nat} {st : StepState} {w : Walk} {lost before : Bool} {events : List Report}

theorem walkStep_after_loss (h : w.lost = true) : walkStep now k met (hold * 1000000) st w = (.incomplete, w) := if_pos h

/-- A step of the walk before which none was lost, by the rows of R109 and R110. -/
theorem walkStep_unlost (h : w.lost = false) : walkStep now k met (hold * 1000000) st w =
    let n := st.next now (st.fails met) w.allComplete met hold
    (n, { allComplete := if st.fails met then w.allComplete else w.allComplete && decide (n = .complete)
          lost := st.fails met
          events := w.events ++ st.note k false (st.fails met) n }) := by
  obtain ⟨allComplete, lost, events⟩ := w
  obtain rfl : lost = false := h
  cases st with
  | timing t => cases met <;> simp [walkStep, StepState.next, StepState.note, StepState.fails]
  | complete => cases met <;> simp [walkStep, StepState.next, StepState.note, StepState.fails]
  | incomplete =>
    cases met with
    | false => simp [walkStep, StepState.next, StepState.note, StepState.fails]
    | true =>
      by_cases instant : hold = 0 <;> cases allComplete <;>
        simp [walkStep, StepState.next, StepState.note, StepState.fails, instant]

/-- What the walk carries: whether a step was lost, the events, and, while none was lost, whether every step taken is COMPLETE. -/
structure Walk.Carries (w : Walk) (lost before : Bool) (events : List Report) : Prop where
  loss : w.lost = lost
  completion : lost = false → w.allComplete = before
  noted : w.events = events

/-- One step of the walk gives the step's next state, and the walk carries its loss, its completion and its event on. -/
theorem walkStep_carries (now : Time) (k : Int) (met : Bool) (hold : Nat) (st : StepState) (h : w.Carries lost before events) :
    let lost' := lost || st.fails met
    let n := st.next now lost' before met hold
    (walkStep now k met (hold * 1000000) st w).1 = n ∧
    (walkStep now k met (hold * 1000000) st w).2.Carries lost' (before && decide (n = .complete))
      (events ++ st.note k lost lost' n) := by
  obtain ⟨rfl, carried, rfl⟩ := h
  cases unlost : w.lost with
  | true =>
    rw [walkStep_after_loss unlost]
    exact ⟨rfl, unlost, nofun, (List.append_nil _).symm⟩
  | false =>
    rw [walkStep_unlost unlost, carried unlost]
    exact ⟨rfl, rfl, fun h => if_neg (Bool.not_eq_true _ ▸ h), rfl⟩

end walkStep

/-! ## The whole walk (R109) -/

/-- The walk as each step's state and event, one step after the other. -/
theorem Tgd.walk_eq (g : Tgd) (l : Lif) (now : Time) (v : View) : g.walk l now v =
    let c := g.chain
    let lost1 := c.s1.fails (g.loopMet l v)
    let lost2 := lost1 || c.s2.fails (g.lubeMet v)
    let lost3 := lost2 || c.s3.fails (g.turningMet v)
    let lost4 := lost3 || c.s4.fails (g.purityMet v)
    let done : StepState → Bool := fun st => decide (st = .complete)
    let n1 := c.s1.next now lost1 true (g.loopMet l v) 0
    let n2 := c.s2.next now lost2 (done n1) (g.lubeMet v) g.cfg.lubeHoldS
    let n3 := c.s3.next now lost3 (done n1 && done n2) (g.turningMet v) g.cfg.warmS
    let n4 := c.s4.next now lost4 (done n1 && done n2 && done n3) (g.purityMet v) g.cfg.purityHoldS
    (⟨n1, n2, n3, n4, if lost4 then .incomplete else c.s5⟩,
      c.s1.note 1 false lost1 n1 ++ c.s2.note 2 lost1 lost2 n2 ++ c.s3.note 3 lost2 lost3 n3 ++ c.s4.note 4 lost3 lost4 n4) := by
  have start : Walk.Carries ⟨true, false, []⟩ false true [] := ⟨rfl, fun _ => rfl, rfl⟩
  obtain ⟨n1, w1⟩ := walkStep_carries now 1 (g.loopMet l v) 0 g.chain.s1 start
  obtain ⟨n2, w2⟩ := walkStep_carries now 2 (g.lubeMet v) g.cfg.lubeHoldS g.chain.s2 w1
  obtain ⟨n3, w3⟩ := walkStep_carries now 3 (g.turningMet v) g.cfg.warmS g.chain.s3 w2
  obtain ⟨n4, w4⟩ := walkStep_carries now 4 (g.purityMet v) g.cfg.purityHoldS g.chain.s4 w3
  refine Prod.ext ?_ w4.noted
  refine (Chain.mk.injEq ..).mpr ⟨n1, n2, n3, n4, ?_⟩
  exact if_congr (Bool.coe_iff_coe.mpr w4.loss) rfl rfl

/-! ## The COMPLETE steps form an unbroken run from S1 (R109) -/

/-- `ChainInv` as a property of the chain. -/
structure Chain.Unbroken (c : Chain) : Prop where
  first : c.s1 = .incomplete ∨ c.s1 = .complete
  second : c.s2 ≠ .incomplete → c.s1 = .complete
  third : c.s3 ≠ .incomplete → c.s2 = .complete
  fourth : c.s4 ≠ .incomplete → c.s3 = .complete
  fifth : c.s5 = .incomplete ∨ (c.s5 = .complete ∧ c.s4 = .complete)

theorem chainInv_iff (s : State) : ChainInv s ↔ s.tgd.chain.Unbroken :=
  ⟨fun ⟨first, second, third, fourth, fifth⟩ => ⟨first, second, third, fourth, fifth⟩,
    fun ⟨first, second, third, fourth, fifth⟩ => ⟨first, second, third, fourth, fifth⟩⟩

namespace Chain.Unbroken

theorem init : Chain.init.Unbroken := ⟨.inl rfl, nofun, nofun, nofun, .inl rfl⟩

variable {c : Chain}

/-- The hold timer of a step runs only behind COMPLETE ones, and no later step has begun. -/
theorem finish (h : c.Unbroken) {x : HoldStep} {t : Timer} (timing : c.step x = .timing t) : (c.finish x).Unbroken := by
  have begun : c.step x ≠ .incomplete := fun e => nomatch timing.symm.trans e
  cases x with
  | s2 => exact ⟨h.first, fun _ => h.second begun, fun _ => rfl, h.fourth, h.fifth⟩
  | s3 => exact ⟨h.first, h.second, fun _ => h.third begun, fun _ => rfl, h.fifth⟩
  | s4 =>
    exact ⟨h.first, h.second, h.third, fun _ => h.fourth begun,
      h.fifth.imp_right fun ⟨released, _⟩ => ⟨released, rfl⟩⟩

/-- A release is taken where S4 is COMPLETE (R114). -/
theorem release (h : c.Unbroken) (purity : c.s4 = .complete) : Chain.Unbroken { c with s5 := .complete } :=
  ⟨h.first, h.second, h.third, h.fourth, .inr ⟨rfl, purity⟩⟩

/-- A reset returns S5 to INCOMPLETE (R116). -/
theorem unrelease (h : c.Unbroken) : Chain.Unbroken { c with s5 := .incomplete } :=
  ⟨h.first, h.second, h.third, h.fourth, .inl rfl⟩

/-- A step that stands after the walk is not lost, so no earlier one is; and each earlier one is COMPLETE, because it was before
or because the walk has just found it so. -/
theorem walk {g : Tgd} (h : g.chain.Unbroken) (l : Lif) (now : Time) (v : View) : (g.walk l now v).1.Unbroken := by
  rw [g.walk_eq]
  extract_lets c lost1 lost2 lost3 lost4 done n1 n2 n3 n4
  refine ⟨StepState.next_instant h.first, fun stands => ?second, fun stands => ?third, fun stands => ?fourth, ?fifth⟩
  case second =>
    obtain ⟨unlost, begun | before⟩ := StepState.of_next stands
    · exact StepState.next_of_complete (Bool.or_eq_false_iff.mp unlost).1 (h.second begun)
    · exact of_decide_eq_true before
  case third =>
    obtain ⟨unlost, begun | before⟩ := StepState.of_next stands
    · exact StepState.next_of_complete (Bool.or_eq_false_iff.mp unlost).1 (h.third begun)
    · exact of_decide_eq_true (Bool.and_eq_true_iff.mp before).2
  case fourth =>
    obtain ⟨unlost, begun | before⟩ := StepState.of_next stands
    · exact StepState.next_of_complete (Bool.or_eq_false_iff.mp unlost).1 (h.fourth begun)
    · exact of_decide_eq_true (Bool.and_eq_true_iff.mp before).2
  case fifth =>
    dsimp only
    split
    · exact .inl rfl
    · next unlost =>
      refine h.fifth.imp_right fun ⟨released, purity⟩ => ⟨released, ?_⟩
      exact StepState.next_of_complete (Bool.not_eq_true _ ▸ unlost) purity

end Chain.Unbroken

/-! ## The steps that are not COMPLETE (R114) -/

/-- A numbered step is not COMPLETE; `firstIncomplete_eq` ties it to the model. -/
def unfinished (x : Int × StepState) : Bool := decide (x.2 ≠ .complete)

theorem firstIncomplete_eq (l : List (Int × StepState)) : firstIncomplete l = (l.find? unfinished).map Prod.fst := by
  induction l with
  | nil => rfl
  | cons x l ih =>
    rw [firstIncomplete, StepState.isComplete_eq, List.find?_cons]
    by_cases complete : x.2 = .complete
    · simp [unfinished, complete, ih]
    · simp [unfinished, complete]

theorem firstIncomplete_none {l : List (Int × StepState)} (h : firstIncomplete l = none) : ∀ x ∈ l, x.2 = .complete := by
  simpa [firstIncomplete_eq, unfinished] using h

/-! ## The unbroken run through the turbine guard

The invariant speaks of the chain alone: the walk, the expiry of a hold timer, RELEASE, RESET, a loss of lock and the resets move
it, and everything else leaves it as it is. -/

theorem tgdCauses_chain (s : State) : (tgdCauses s).tgd.chain = s.tgd.chain :=
  foldl_keeps (·.tgd.chain) takeHolding (fun s c => takeCause_chain c.1 c.2 s) _ _

theorem tgdChain_chain (s : State) : (tgdChain s).tgd.chain = (s.tgd.walk s.lif s.now s.tgd.view).1 := by
  rw [tgdChain, raiseAll_tgd]

namespace ChainInv

variable {s t : State}

theorem of_chain (h : ChainInv s) (e : t.tgd.chain = s.tgd.chain) : ChainInv t := by
  rw [chainInv_iff] at h ⊢
  rwa [e]

theorem of_frame {ps : List Part} (h : ChainInv s) (f : Frame ps s t) (hps : .tgd ∉ ps) : ChainInv t :=
  h.of_chain (congrArg Tgd.chain (f.same .tgd hps))

theorem of_init (e : t.tgd.chain = .init) : ChainInv t := (chainInv_iff t).mpr (e ▸ .init)

theorem tgdProcess (h : ChainInv s) : ChainInv (tgdProcess s) := by
  unfold Machine.tgdProcess
  split
  · have causes := (tgdCauses_chain { s with todo := { s.todo with tgd := false }, tgd := { s.tgd with view := s.view } })
    generalize tgdCauses _ = u at causes ⊢
    have before : u.tgd.chain.Unbroken := causes ▸ (chainInv_iff s).mp h
    have walked : ChainInv (tgdChain u) := (chainInv_iff _).mpr (tgdChain_chain u ▸ before.walk _ _ _)
    exact walked.of_chain rfl
  · exact h

theorem holdExpiry (x : HoldStep) (h : ChainInv s) : ChainInv (holdExpiry x s) := by
  unfold Machine.holdExpiry
  split
  · next timing => exact (chainInv_iff _).mpr (((chainInv_iff s).mp h).finish timing)
  · exact h
  · exact h

theorem turbineRelease (h : ChainInv s) : ChainInv (turbineRelease s).2 := by
  unfold Machine.turbineRelease
  repeat' split
  case h_2 complete =>
    have purity : s.tgd.chain.s4 = .complete := firstIncomplete_none complete (4, _) (by simp [Chain.four])
    exact (chainInv_iff _).mpr (((chainInv_iff s).mp h).release purity)
  all_goals exact h

theorem turbineReset (h : ChainInv s) : ChainInv (turbineReset s).2 := by
  unfold Machine.turbineReset
  repeat' split
  case h_2 => exact (chainInv_iff _).mpr ((chainInv_iff s).mp h).unrelease
  all_goals exact h

theorem turbineTrip (h : ChainInv s) : ChainInv (turbineTrip s).2 := by
  unfold Machine.turbineTrip
  repeat' split
  · exact h
  · exact h
  · exact h.of_chain (takeCause_chain .hostTrip false s)

theorem turbineCmd (p : List Byte) (h : ChainInv s) : ChainInv (turbineCmd p s).2 := by
  unfold Machine.turbineCmd
  repeat' split
  · exact h.turbineTrip
  · exact h.turbineReset
  · exact h.turbineRelease
  · exact h
  · exact h

/-! ### LIF and the handover -/

/-- The receiver leaves LOCKED, and the chain is returned, in either order (R111). -/
theorem leftLocked (why : Int) (s : State) : ChainInv (leftLocked why s) := by
  rcases eitherOrder_cases (raise .loopUnlock 0 why) chainReset s with e | e <;> rw [Machine.leftLocked, e]
  · exact of_init (by rw [chainReset, raiseIf_tgd])
  · exact of_init (by rw [raise_tgd, chainReset, raiseIf_tgd])

theorem loseFrames (why : Int) (since : Time) (h : ChainInv s) : ChainInv (loseFrames why since s) := by
  unfold Machine.loseFrames
  dsimp only
  split
  · exact leftLocked _ _
  · exact h.of_chain rfl

theorem lineSilence (h : ChainInv s) : ChainInv (lineSilence s) := by
  unfold Machine.lineSilence
  split
  · exact loseFrames _ _ (h.of_chain rfl)
  · exact h

theorem catchUp (h : ChainInv s) : ChainInv (catchUp s) := by
  have supervised := (h.of_frame (mbcProcess_frame s) (by decide)).of_frame (wsvProcess_frame _) (by decide)
  have heated := supervised.tgdProcess.of_frame (hxuProcess_frame _) (by decide)
  exact (heated.of_frame (scmProcess_frame _) (by decide)).of_frame (capProcess_frame _) (by decide)

theorem handOver (h : ChainInv s) : ChainInv (handOver s) := by
  have ready : ChainInv (converted s) := h.catchUp.of_frame (converted_frame s) (by decide)
  rw [handOver_eq]
  generalize converted s = u at ready ⊢
  exact ready.of_chain rfl

theorem afterFrame (expected : Option (Fin 6)) (h : ChainInv s) : ChainInv (afterFrame expected s) := by
  unfold Machine.afterFrame
  split
  · exact h.handOver
  · exact h

theorem countError (k : ErrorKind) (h : ChainInv s) : ChainInv (countError k s) := by
  unfold Machine.countError
  exact h.of_chain (congrArg Tgd.chain (raiseIf_tgd _ _ _ _ _))

theorem judgeBadAlign (h : ChainInv s) : ChainInv (judgeBadAlign s) := by
  have counted := h.countError .alignment
  unfold Machine.judgeBadAlign
  generalize Machine.countError .alignment s = u at counted ⊢
  dsimp only
  split
  · exact loseFrames _ _ (counted.of_chain rfl)
  · exact afterFrame _ (counted.of_chain rfl)

theorem judgeOutOfSequence (index : Nat) (h : ChainInv s) : ChainInv (judgeOutOfSequence index s) := by
  have counted := h.countError .sequence
  unfold Machine.judgeOutOfSequence
  generalize Machine.countError .sequence s = u at counted ⊢
  dsimp only
  split
  · exact leftLocked _ _
  · exact counted.of_chain rfl

theorem enterLocked (h : ChainInv s) : ChainInv (enterLocked s) := by
  unfold Machine.enterLocked endBlind
  split <;> exact h.of_chain rfl

theorem qualify (i : Fin 6) (h : ChainInv s) : ChainInv (qualify i s) := by
  unfold Machine.qualify
  dsimp only
  repeat' split
  · exact h.of_chain rfl
  · exact enterLocked (h.of_chain rfl)
  · exact h.of_chain rfl

theorem collect (expected : Option (Fin 6)) (taken : Bool) (i : Fin 6) (slots : Vector Word 28) (h : ChainInv s) :
    ChainInv (collect expected taken i slots s) := by
  unfold Machine.collect
  split
  · exact afterFrame _ (h.of_chain rfl)
  · exact h.qualify i

theorem countCheck (good : Bool) (h : ChainInv s) : ChainInv (countCheck good s) := by
  unfold Machine.countCheck
  split
  · exact h
  · exact h.countError .check

theorem takeFlags (i : Fin 6) (station remote : Bool) (h : ChainInv s) : ChainInv (takeFlags i station remote s) := by
  unfold Machine.takeFlags
  exact h.of_chain (by simp only [raiseIf_tgd])

theorem judgeFramed (f : LoopFrame) (h : ChainInv s) : ChainInv (judgeFramed f s) := by
  unfold Machine.judgeFramed judgeInSequence
  dsimp only
  repeat' split
  · exact h.judgeBadAlign
  · exact judgeOutOfSequence _ (h.of_chain rfl)
  · exact collect _ _ _ _ (takeFlags _ _ _ (countCheck _ (h.of_chain rfl)))

theorem judgeFrame (f : LoopFrame) (h : ChainInv s) : ChainInv (judgeFrame f s) := by
  unfold Machine.judgeFrame
  repeat' split
  · exact h.loseFrames _ _
  · exact judgeFramed f (h.of_chain rfl)
  · exact h

end ChainInv

/-- BLIND is a cause to trip and leaves the chain as it is (R104, R108). -/
theorem blindExpiry_chain (s : State) : (blindExpiry s).tgd.chain = s.tgd.chain := by
  unfold Machine.blindExpiry
  split
  · rfl
  · next t _ =>
    dsimp only
    generalize taken : outBlind _ = u
    have kept : u.tgd = s.tgd := taken ▸ (outBlind_frame _).same .tgd (by decide)
    rcases eitherOrder_cases (raise .loopBlind 0 (t.duration / 1000 : Nat)) (takeCause .blind false) u with e | e <;> rw [e]
    · rw [takeCause_chain, raise_tgd, kept]
    · rw [raise_tgd, takeCause_chain, kept]

theorem enterLeaving_tgd (s : State) : (enterLeaving s).tgd = s.tgd :=
  (eitherOrder_frame (fun t => raise_wells .bankMode 0 Mode.leaving.code t) emptyStartQueue_frame _).same .tgd (by decide)

namespace ChainInv

variable {s t : State}

/-! ### Modes and tables -/

/-- Entry into CONFIG returns the chain, and no other change of mode reaches it (R118). -/
theorem setMode (p : List Byte) (h : ChainInv s) : ChainInv (setMode p s).2 := by
  have config : ChainInv (setConfig s).2 := by
    unfold setConfig
    split
    · exact h
    · exact of_init rfl
    · exact h
    · exact h
  have standby : ChainInv (setStandby s).2 := by
    unfold setStandby
    repeat' split
    · exact h
    · exact h.of_chain rfl
    · exact h
    · exact h.of_chain (congrArg Tgd.chain (enterLeaving_tgd s))
    · exact h
  have supervise : ChainInv (setSupervise s).2 := by
    unfold setSupervise
    repeat' split
    all_goals exact h.of_chain rfl
  unfold Machine.setMode
  repeat' split
  · exact config
  · exact standby
  · exact supervise
  · exact h
  · exact h

/-- A record stored, the TURBINE record with the others, leaves the chain as it is. -/
theorem tableWrite (p : List Byte) (h : ChainInv s) : ChainInv (tableWrite p s).2 := by
  have store (ref : TableRef) (b : List Byte) : ChainInv (ref.store b s).2 := by
    cases ref with
    | curve i =>
      show ChainInv (storeCurve i b s).2
      unfold storeCurve
      split
      · exact h
      · exact storeIf_holds h fun _ _ => h.of_chain rfl
    | heatCurve =>
      show ChainInv (storeHeatCurve b s).2
      unfold storeHeatCurve
      split
      · exact h
      · exact storeIf_holds h fun _ _ => h.of_chain rfl
    | capture =>
      show ChainInv (storeCapture b s).2
      unfold storeCapture
      repeat' split
      · exact h
      · exact h
      · exact storeIf_holds h fun _ _ => h.of_chain rfl
    | _ => exact storeIf_holds h fun _ _ => h.of_chain rfl
  unfold Machine.tableWrite writeTable
  dsimp only
  repeat' split
  · exact h
  · exact h
  · exact h
  · exact store _ _
  · exact h

/-! ### Every command -/

/-- A handler that leaves the turbine guard alone. -/
theorem handlerFrame {ps : List Part} {handler : Handler} (f : HandlerFrame ps handler) (hps : .tgd ∉ ps) :
    HandlerKeeps ChainInv handler := fun p s h => h.of_frame (f p s) hps

theorem handlers : ∀ handler ∈ handlers, HandlerKeeps ChainInv handler := by
  simp only [Machine.handlers, List.cons_append, List.nil_append, List.forall_mem_cons, List.not_mem_nil, false_imp_iff,
    implies_true, and_true]
  refine ⟨handlerFrame ident_frame (by decide), handlerFrame status_frame (by decide), fun p _ => setMode p,
    handlerFrame restart_frame (by decide), fun p _ => tableWrite p, handlerFrame tableRead_frame (by decide),
    handlerFrame stage_frame (by decide), handlerFrame publishBank_frame (by decide), handlerFrame readBank_frame (by decide),
    handlerFrame resume_frame (by decide), handlerFrame wellCmd_frame (by decide), handlerFrame readWells_frame (by decide),
    fun p _ => turbineCmd p, handlerFrame readTurbine_frame (by decide), handlerFrame outputCmd_frame (by decide),
    handlerFrame readOutputs_frame (by decide), handlerFrame force_frame (by decide), handlerFrame unforce_frame (by decide),
    handlerFrame trim_frame (by decide), handlerFrame readChannels_frame (by decide), handlerFrame setLab_frame (by decide),
    handlerFrame ackAlarm_frame (by decide), handlerFrame readScale_frame (by decide), handlerFrame readHeat_frame (by decide),
    handlerFrame clearEnergy_frame (by decide), handlerFrame readLoop_frame (by decide), handlerFrame fetchEvents_frame (by decide),
    handlerFrame captureCmd_frame (by decide), handlerFrame readCapture_frame (by decide), handlerFrame timeSet_frame (by decide),
    handlerFrame timeSync_frame (by decide)⟩

theorem anyFrame (kind : Byte) (r : Request) (h : ChainInv s) : ChainInv (anyFrame kind r s) := by
  have keeps : HandlerKeeps ChainInv (handlerOf kind) := by
    rcases handlerOf_mem kind with known | unknown
    · exact handlers _ known
    · exact unknown ▸ handlerFrame unknown_frame (by decide)
  unfold Machine.anyFrame goodFrame
  split
  · exact h.of_chain rfl
  · exact (keeps r.payload s.hears (h.of_chain rfl)).of_chain rfl

theorem completeFrame (kind : Byte) (r : Request) (crc : Word) (h : ChainInv s) : ChainInv (completeFrame kind r crc s) := by
  unfold Machine.completeFrame
  split
  · exact h.anyFrame kind r
  · exact h.of_chain rfl

theorem takeByte (b : Byte) (h : ChainInv s) : ChainInv (takeByte b s) := by
  have fresh : ChainInv (if dueAt s.now s.gapTimer then receiver .hunt s else s) := by
    split
    · exact h.of_chain rfl
    · exact h
  unfold Machine.takeByte
  generalize (if dueAt s.now s.gapTimer then receiver .hunt s else s) = u at fresh ⊢
  unfold judgeByte completeBody
  repeat' split
  case h_1 => exact fresh.completeFrame _ _ _
  all_goals exact fresh.of_chain rfl

/-- RESTART returns the chain (R118). -/
theorem replyEnds (h : ChainInv s) : ChainInv (replyEnds s) := by
  unfold Machine.replyEnds emptyBuffer
  repeat' split
  · exact h
  · exact of_init rfl
  · exact h.of_chain rfl

theorem restartEnds (h : ChainInv s) : ChainInv (restartEnds s) := by
  unfold Machine.restartEnds
  repeat' split
  · exact h
  · exact of_init rfl
  · exact h

/-- Every command keeps the run unbroken: a frame by its handler, TGD's own rows by the chain's moves, LIF's by the return of the
chain or a snapshot, and the rest because they leave TGD alone. -/
theorem exec {c : Instr} (h : ChainInv s) (e : exec c s = .next t) : ChainInv t := by
  cases hf : c.frame with
  | some p => exact Keeps.live h (h.anyFrame p.1 p.2) ((exec_frameRow s hf).symm.trans e)
  | none =>
    cases c with
    | restartEffect => exact Keeps.live h h.restartEnds e
    | crcMismatchDiscard kind r crc => exact Keeps.live h (h.completeFrame kind r crc) e
    | badLenDiscard b => exact Keeps.live h (h.takeByte b) e
    | replySent => exact Keeps.live h h.replyEnds e
    | powerOnReset straps => exact Host.Outcome.next.inj e ▸ of_init rfl
    | frameJudge f => exact Keeps.live h (h.judgeFrame f) e
    | lineSilenceTimeout => exact Keeps.live h h.lineSilence e
    | blindTimerExpiry => exact Keeps.live h (h.of_chain (blindExpiry_chain s)) e
    | tgdProcessSnapshot => exact Keeps.live h h.tgdProcess e
    | permissiveHoldExpiry x => exact Keeps.live h (h.holdExpiry x) e
    | framingErrorAbandon | gapAbandon | resetPinLow | candidateMatch | candidateConfirm | candidateFail | huntIntervalExpiry
    | searchDwellExpiry | outboundScanStart | outboundFrameStart | mbcProcessSnapshot | hostTimerExpiry | wsvProcessSnapshot
    | startTimerExpiry | staggerTimerExpiry | hxuProcessSnapshot | scmProcessSnapshot | capProcessSnapshot | clockAdvance =>
      exact h.of_frame (exec_frame e) (by simp [Instr.parts])
    | _ => exact nomatch hf

/-- An idle step moves the time base and the queue alone, and any other step runs a command. -/
theorem step (h : ChainInv s) (e : step s = .next t) : ChainInv t := by
  unfold Machine.step at e
  split at e
  · obtain rfl := Host.Outcome.next.inj e
    unfold tick
    split
    · exact h
    · exact h.of_chain rfl
  · refine exec ?_ e
    exact h.of_chain rfl

end ChainInv

/-- Settles O56: each move of the chain leaves an unbroken run, the walk because a step stands after it only behind COMPLETE
ones. -/
theorem chainInvKept : Obligations.ChainInvKept := fun _ _ h e => h.step e

/-! ## TGD at a snapshot (R101 to R106) -/

theorem takeCauseIf_congr {p q : Prop} [Decidable p] [Decidable q] (h : p ↔ q) (c : Cause) (stale : Bool) (s : State) :
    takeCauseIf p c stale s = takeCauseIf q c stale s := if_congr h rfl rfl

/-- A STALE reading leaves a count, one beyond the limit counts, and any other clears it (R102). -/
theorem persist_eq (r : Reading) (p : Prop) [Decidable p] (n : Nat) : persist r (decide p) n =
    if r.quality = .stale then n else if p then min 255 (n + 1) else 0 := by
  unfold persist
  simp only [not_usable_iff, decide_eq_true_eq]

theorem Tgd.fieldTrip_iff (g : Tgd) (v : View) : g.fieldTrip v = true ↔
    ∃ ch, g.cfg.field = some ch ∧ v.chans[ch].quality ≠ .stale ∧ v.chans[ch].value = 1 := by
  unfold fieldTrip
  cases g.cfg.field with
  | none => simp
  | some ch =>
    simp only [Option.some.injEq, exists_eq_left']
    exact holds_iff (v.reading ch) (· = 1)

/-- One cause of the list of those that hold: on a STALE channel, beyond its limit, or not at all (R102, R103). -/
theorem foldl_takeHolding_channel (r : Reading) (p : Prop) [Decidable p] (c : Cause) (s : State) :
    (if !r.usable then [(c, true)] else if p then [(c, false)] else []).foldl takeHolding s =
      takeCauseIf (r.quality = .stale ∨ p) c (decide (r.quality = .stale)) s := by
  unfold takeCauseIf
  by_cases stale : r.quality = .stale
  · rw [if_pos ((not_usable_iff r).mpr stale), if_pos (.inl stale), decide_eq_true stale]
    rfl
  · rw [if_neg (mt (not_usable_iff r).mp stale), decide_eq_false stale]
    by_cases beyond : p
    · rw [if_pos beyond, if_pos (.inr beyond)]
      rfl
    · rw [if_neg beyond, if_neg (not_or.mpr ⟨stale, beyond⟩)]
      rfl

theorem foldl_takeHolding_field (b : Bool) (c : Cause) (s : State) :
    (if b then [(c, false)] else []).foldl takeHolding s = takeCauseIf (b = true) c false s := by
  cases b <;> rfl

/-- The causes that hold are taken in code order, on the guard with its counts updated (R102, R103, R104). -/
theorem tgdCauses_eq (s : State) {g : Tgd} (counted : s.tgd.count s.tgd.view = g) : tgdCauses s =
    let speed := s.tgd.view.chans[g.cfg.speed]
    let lube := s.tgd.view.chans[g.cfg.lube]
    let purity := s.tgd.view.chans[g.cfg.purity]
    takeCauseIf (g.fieldTrip s.tgd.view = true) .field false
      (takeCauseIf (purity.quality = .stale ∨ g.cfg.purityPersistence ≤ g.purityCount) .purityHigh
        (decide (purity.quality = .stale))
        (takeCauseIf (lube.quality = .stale ∨ g.cfg.lubePersistence ≤ g.lubeCount) .lubeLow (decide (lube.quality = .stale))
          (takeCauseIf (speed.quality = .stale ∨ g.cfg.tripSpeed ≤ speed.value) .overspeed (decide (speed.quality = .stale))
            { s with tgd := g }))) := by
  subst counted
  unfold tgdCauses Tgd.holding
  dsimp only
  rw [List.foldl_append, List.foldl_append, List.foldl_append, foldl_takeHolding_channel, foldl_takeHolding_channel,
    foldl_takeHolding_channel, foldl_takeHolding_field]
  rfl

theorem Tgd.count_eq (g : Tgd) (v : View) : g.count v =
    let lube := v.chans[g.cfg.lube]
    let purity := v.chans[g.cfg.purity]
    { g with
      lubeCount := if lube.quality = .stale then g.lubeCount
        else if lube.value < g.cfg.lubeTrip then min 255 (g.lubeCount + 1) else 0
      purityCount := if purity.quality = .stale then g.purityCount
        else if g.cfg.purityTrip < purity.value then min 255 (g.purityCount + 1) else 0 } := by
  simp only [count, persist_eq]
  rfl

theorem takeCauseIf_inputs (p : Prop) [Decidable p] (c : Cause) (stale : Bool) (s : State) :
    (takeCauseIf p c stale s).tgd.inputs = s.tgd.inputs := by
  unfold takeCauseIf
  split
  · exact takeCause_inputs c stale s
  · rfl

theorem tgdChain_inputs (s : State) : (tgdChain s).tgd.inputs = s.tgd.inputs := by
  rw [tgdChain, raiseAll_tgd]
  rfl

/-- Phase 3: both demands of the guard state, from the record and the view (R101, R105, R106; log 12). -/
theorem tgdDemands_eq (s : State) {c : TurbineRecord} {v : View} (h : s.tgd.inputs = (c, v)) : tgdDemands s =
    let stop : Int := match s.tgd.guard with
      | .armed => 1
      | .tripped => 0
    let bypass := match s.tgd.guard with
      | .armed => v.active.bypass
      | .tripped => max v.active.bypass c.bypassPosition
    deliver .bypassValve bypass (deliver .stopValve stop
      { s with tgd := { s.tgd with stopDemand := stop, bypassDemand := bypass } }) := by
  obtain ⟨rfl, rfl⟩ := Prod.mk.inj h
  rfl

/-- Settles O39: the counts, the causes in code order, the chain, and then the demands of the state that the guard is in. -/
theorem tgdSnapshotProcessed : Obligations.TgdSnapshotProcessed := by
  intro s live
  rw [exec_tgdProcessSnapshot live]
  refine ⟨fun idle => congrArg _ (if_neg (by simp [idle])), fun waits => ?_⟩
  intro v c speed lube purity lubes purities s1 when1 when2 when3 s2 s3 stop bypass
  have hcauses : tgdCauses { s with todo := { s.todo with tgd := false }, tgd := { s.tgd with view := s.view } } = s2 := by
    have counted : Tgd.count { s.tgd with view := v } v = s1.tgd := Tgd.count_eq _ _
    exact (tgdCauses_eq _ counted).trans (takeCauseIf_congr (s1.tgd.fieldTrip_iff v) _ _ _)
  have hinputs : s3.tgd.inputs = (c, v) :=
    calc s3.tgd.inputs = s2.tgd.inputs := tgdChain_inputs s2
      _ = when3.tgd.inputs := takeCauseIf_inputs ..
      _ = when2.tgd.inputs := takeCauseIf_inputs ..
      _ = when1.tgd.inputs := takeCauseIf_inputs ..
      _ = s1.tgd.inputs := takeCauseIf_inputs ..
  rw [tgdProcess, if_pos waits, hcauses]
  change Host.Outcome.next (tgdDemands s3) = _
  clear_value s3
  exact congrArg Host.Outcome.next (tgdDemands_eq s3 hinputs)

/-! ## The walk and the expiry written out (R108 to R111) -/

theorem holdExpiry_idle {x : HoldStep} {s : State} (h : ∀ t, s.tgd.chain.step x ≠ .timing t) : holdExpiry x s = s := by
  unfold holdExpiry
  split
  · next t timing => exact absurd timing (h t)
  · rfl
  · rfl

theorem holdExpiry_timing {x : HoldStep} {s : State} {t : Timer} (h : s.tgd.chain.step x = .timing t) : holdExpiry x s =
    raise .turbStepDone (HoldStep.number x) 0 { s.reachEnd t with tgd := { s.tgd with chain := s.tgd.chain.finish x } } := by
  simp only [holdExpiry, h]
  rfl

/-- The expiry of a hold timer completes its own step and no other (R109). -/
theorem Chain.step_finish (c : Chain) (x y : HoldStep) : (c.finish x).step y = if y = x then .complete else c.step y := by
  cases x <;> cases y <;> rfl

theorem Chain.finish_s1 (c : Chain) (x : HoldStep) : (c.finish x).s1 = c.s1 := by cases x <;> rfl
theorem Chain.finish_s5 (c : Chain) (x : HoldStep) : (c.finish x).s5 = c.s5 := by cases x <;> rfl

/-- Settles O40: the walk as each step's state and event, with the conditions of Table 6-4, and the expiry by the state of its
step. -/
theorem chainWalked : Obligations.ChainWalked := by
  refine ⟨fun s => ?walk, fun s x live => ?expiry⟩
  case walk =>
    intro g ch usable met1 met2 met3 met4
    have husable : Reading.usable = usable := funext usable_eq
    have h1 : g.loopMet s.lif g.view = met1 := by rw [Tgd.loopMet, husable]; rfl
    have h2 : g.lubeMet g.view = met2 := by rw [Tgd.lubeMet, Reading.holds, husable]; rfl
    have h3 : g.turningMet g.view = met3 := by rw [Tgd.turningMet, Reading.holds, Reading.holds, husable]; rfl
    have h4 : g.purityMet g.view = met4 := by rw [Tgd.purityMet, Reading.holds, husable]; rfl
    rw [tgdChain, Tgd.walk_eq, h1, h2, h3, h4]
    rfl
  case expiry =>
    have row : exec (.permissiveHoldExpiry x) s = .next (holdExpiry x s) := live_next _ live
    rw [row]
    refine ⟨fun idle => congrArg _ (holdExpiry_idle idle), fun t timing => ?_⟩
    refine ⟨s.tgd.chain.finish x, ?_, Chain.finish_s1 .., Chain.finish_s5 .., Chain.step_finish _ x⟩
    rw [holdExpiry_timing timing]
    cases x <;> rfl

/-! ## TURBINE_CMD (R112 to R116) -/

theorem turbineCmd_badLength {p : List Byte} (s : State) (h : p.length ≠ 1) :
    turbineCmd p s = turbineAnswer .badLength 0 0 s := by
  unfold turbineCmd
  split
  · exact absurd rfl h
  · rfl

theorem turbineCmd_badValue {k : Byte} (s : State) (h : 2 < k.toNat) : turbineCmd [k] s = turbineAnswer .badValue 0 0 s := by
  have not_command : ∀ n : Byte, n.toNat ≤ 2 → k ≠ n := fun n hn e => absurd (e ▸ h) (Nat.not_lt.mpr hn)
  simp only [turbineCmd, if_neg (not_command 0 (by decide)), if_neg (not_command 1 (by decide)),
    if_neg (not_command 2 (by decide))]

/-- The causes with their codes, in code order (Table 6-3). -/
theorem find_coded_cause (p : Cause → Bool) :
    (Cause.all.map fun c => (c.code, c)).find? (fun x => p x.2) = (Cause.all.find? p).map fun c => (c.code, c) := by
  rw [List.find?_map]
  rfl

/-- RESET checks the mode, the link and the guard, then the active causes in code order, then the steps (R112, R116). -/
theorem turbineReset_eq (s : State) : turbineReset s =
    if s.mbc.mode ≠ .supervise then turbineAnswer .wrongMode 0 0 s
    else if s.mbc.link = .silent then turbineAnswer .linkLocked 0 0 s
    else if s.tgd.guard = .armed then turbineAnswer .already 0 0 s
    else match (Cause.all.map fun c => (c.code, c)).find? (fun x => s.tgd.activeNow s.lif.blind x.2),
      (s.tgd.chain.four ++ [(5, s.tgd.chain.s5)]).find? unfinished with
    | some x, _ => turbineAnswer .blocked 1 x.1 s
    | none, some x => turbineAnswer .blocked 2 x.1 s
    | none, none => turbineAnswer .ok 0 0 (turbineArm s) := by
  rw [turbineReset, resetBlock, find_coded_cause, firstIncomplete_eq]
  cases Cause.all.find? (s.tgd.activeNow s.lif.blind) with
  | some c => rfl
  | none =>
    cases (s.tgd.chain.four ++ [(5, s.tgd.chain.s5)]).find? unfinished with
    | some x => rfl
    | none => rfl

/-- RELEASE checks the mode, the link, the guard and S5, then the steps before it (R112, R114). -/
theorem turbineRelease_eq (s : State) : turbineRelease s =
    if s.mbc.mode = .config then turbineAnswer .wrongMode 0 0 s
    else if s.mbc.link = .silent then turbineAnswer .linkLocked 0 0 s
    else if s.tgd.guard = .armed then turbineAnswer .wrongState 0 0 s
    else if s.tgd.chain.s5 = .complete then turbineAnswer .already 0 0 s
    else match s.tgd.chain.four.find? unfinished with
    | some x => turbineAnswer .blocked 2 x.1 s
    | none => turbineAnswer .ok 0 0
        (raise .turbStepDone 5 0 { s with tgd := { s.tgd with chain := { s.tgd.chain with s5 := .complete } } }) := by
  rw [turbineRelease, firstIncomplete_eq]
  simp only [StepState.isComplete_eq, decide_eq_true_eq]
  cases s.tgd.chain.four.find? unfinished with
  | some x => rfl
  | none => rfl

/-- Settles O38: the length and the command byte are checked first, and then each command goes by its own checks in order. -/
theorem turbineCommandJudged : Obligations.TurbineCommandJudged := by
  intro r s c ready hc g reply notDone causes first steps
  have row : exec c s = live s (goodFrame 0x0D turbineCmd r) := by rcases hc with rfl | rfl | rfl <;> rfl
  have hfirst : firstCode s.hears.tgd.first = first := firstCode_eq _
  rw [exec_request ready row]
  clear_value first
  refine ⟨fun h => ?length, fun k hp hk => ?value, fun hp => ?trip, fun hp => ?reset, fun hp => ?release⟩
  case length => rw [turbineCmd_badLength _ h]; rfl
  case value => rw [hp, turbineCmd_badValue _ hk]; rfl
  case trip =>
    have taken : turbineCmd [0x00#8] s.hears = turbineTrip s.hears := rfl
    rw [hp, taken, turbineTrip]
    simp only [apply_ite (fillBuffer 0x0D r)]
    rfl
  case reset =>
    have taken : turbineCmd [0x01#8] s.hears = turbineReset s.hears := rfl
    have hcauses : (Cause.all.map fun c => (c.code, c)).find? (fun x => s.hears.tgd.activeNow s.hears.lif.blind x.2) =
      causes.find? (fun x => g.activeNow s.lif.blind x.2) := rfl
    have hsteps : (s.hears.tgd.chain.four ++ [(5, s.hears.tgd.chain.s5)]).find? unfinished =
      (steps ++ [(5, g.chain.s5)]).find? notDone := rfl
    rw [hp, taken, turbineReset_eq, hcauses, hsteps]
    simp only [apply_ite (fillBuffer 0x0D r), turbineArm, hfirst]
    cases causes.find? (fun x => g.activeNow s.lif.blind x.2) with
    | some x => rfl
    | none =>
      cases (steps ++ [(5, g.chain.s5)]).find? notDone with
      | some x => rfl
      | none => rfl
  case release =>
    have taken : turbineCmd [0x02#8] s.hears = turbineRelease s.hears := rfl
    have hsteps : s.hears.tgd.chain.four.find? unfinished = steps.find? notDone := rfl
    rw [hp, taken, turbineRelease_eq, hsteps]
    simp only [apply_ite (fillBuffer 0x0D r)]
    cases steps.find? notDone with
    | some x => rfl
    | none => rfl

end Sys2Proof.Machine

/-! PROOFS. The heat exchange unit and three requests: the energy counter through every step, HXU's phases at a snapshot,
CLEAR_ENERGY, SET_LAB and ACK_ALARM (R121 to R132, R137, R150). -/

namespace Sys2Proof.Machine

/-! ## A frame judged: LIF's own moves, or a scan handed over as well -/

section judged

variable (s : State)

theorem lif_unlock (l : Lif) : Frame unlockParts s { s with lif := l } := (lif_frame l s).mono (by decide)

theorem raiseIf_unlock (c : Bool) (k : EventKind) (a b : Int) : Frame unlockParts s (raiseIf c k a b s) :=
  (raiseIf_frame c k a b s).mono (by decide)

theorem countError_unlock (k : ErrorKind) : Frame unlockParts s (countError k s) :=
  (lif_unlock s _).trans (raiseIf_unlock _ _ _ _ _)

theorem judgeOutOfSequence_unlock (n : Nat) : Frame unlockParts s (judgeOutOfSequence n s) := by
  have counted := countError_unlock s .sequence
  unfold judgeOutOfSequence
  generalize countError .sequence s = u at counted ⊢
  dsimp only
  split
  · exact (counted.trans (lif_unlock u _)).trans (loseSequence_frame _)
  · exact counted.trans (lif_unlock u _)

theorem takeFlags_unlock (i : Fin 6) (station remote : Bool) : Frame unlockParts s (takeFlags i station remote s) := by
  unfold takeFlags
  exact (((lif_unlock s _).trans (raiseIf_unlock _ _ _ _ _)).trans (raiseIf_unlock _ _ _ _ _)).trans (raiseIf_unlock _ _ _ _ _)

theorem countCheck_unlock (good : Bool) : Frame unlockParts s (countCheck good s) :=
  Frame.ite (.refl _ s) (countError_unlock s _)

/-- The end of BLIND reaches OUT, which a loss of lock reaches too (R18, R48, R111). -/
theorem endBlind_unlock : Frame unlockParts s (endBlind s) := by
  unfold endBlind
  refine Frame.ite ⟨fun p hp => ?_⟩ (.refl _ s)
  cases p <;> first | rfl | simp at hp

theorem qualify_unlock (i : Fin 6) : Frame unlockParts s (qualify i s) := by
  have locked (u : State) : Frame unlockParts u (enterLocked u) :=
    (lif_unlock u _).trans (((raise_frame _ _ _ _).mono (by decide)).trans (endBlind_unlock _))
  unfold qualify
  exact Frame.ite (lif_unlock s _) ((lif_unlock s _).trans (Frame.ite (locked _) (.refl _ _)))

end judged

/-- A frame judged in s changes LIF, TGD, OUT and the queue, and may then hand a scan over. -/
def HandsOver (s t : State) : Prop := Frame unlockParts s t ∨ ∃ u, Frame unlockParts s u ∧ t = handOver u

section judged

variable {s u : State} (h : Frame unlockParts s u)
include h

theorem afterFrame_handsOver (expected : Option (Fin 6)) : HandsOver s (afterFrame expected u) := by
  unfold afterFrame
  split
  · exact .inr ⟨u, h, rfl⟩
  · exact .inl h

theorem judgeBadAlign_handsOver : HandsOver s (judgeBadAlign u) := by
  have counted := h.trans (countError_unlock u .alignment)
  unfold judgeBadAlign
  generalize countError .alignment u = v at counted ⊢
  dsimp only
  split
  · exact .inl ((counted.trans (lif_unlock v _)).trans (loseFrames_frame _ _ _))
  · exact afterFrame_handsOver (counted.trans (lif_unlock v _)) _

theorem collect_handsOver (expected : Option (Fin 6)) (taken : Bool) (i : Fin 6) (slots : Vector Word 28) :
    HandsOver s (collect expected taken i slots u) := by
  unfold collect
  split
  · exact afterFrame_handsOver (h.trans (lif_unlock u _)) _
  · exact .inl (h.trans (qualify_unlock u i))

theorem judgeFramed_handsOver (f : LoopFrame) : HandsOver s (judgeFramed f u) := by
  unfold judgeFramed
  split
  · exact judgeBadAlign_handsOver h
  · dsimp only
    split
    · exact .inl ((h.trans (lif_unlock u _)).trans (judgeOutOfSequence_unlock _ _))
    · refine collect_handsOver (.trans (.trans ?_ (countCheck_unlock _ _)) (takeFlags_unlock _ _ _ _)) _ _ _ _
      exact (h.trans (lif_unlock u _)).trans (lif_unlock _ _)

omit h in
theorem judgeFrame_handsOver (f : LoopFrame) (s : State) : HandsOver s (judgeFrame f s) := by
  unfold judgeFrame
  repeat' split
  · exact .inl (loseFrames_frame _ _ s)
  · exact judgeFramed_handsOver (lif_unlock s _) f
  · exact .inl (.refl _ s)

end judged

/-! ## What every step keeps of HXU and CAP

The energy counter and the capture ring outlive mode changes and RESTART. A property of these two blocks that the few operations on
them keep is kept by every step (`KeepsStores.step`). -/

/-- What an invariant of HXU and CAP has to be shown to keep for every step to keep it. -/
structure KeepsStores (P : State → Prop) : Prop where
  reads {s t : State} : P s → t.hxu = s.hxu → t.cap = s.cap → P t
  heat {s : State} : P s → P (hxuProcess s)
  capture {s : State} : P s → P (capProcess s)
  clear : HandlerKeeps P clearEnergy
  command : HandlerKeeps P captureCmd
  heating {s : State} (c : HeatingRecord) (curve : List CurvePoint) : P s →
    P { s with hxu := { s.hxu with cfg := c, curve := curve } }
  record {s : State} (c : CaptureRecord) : P s → P { s with cap := { s.cap with cfg := c } }
  reset {s : State} : P s → P (runtimeReset s)
  power (straps : BitVec 2) (s : State) : P (powerOn straps s)

namespace KeepsStores

variable {P : State → Prop} (K : KeepsStores P) {s t : State}
include K

theorem frame {ps : List Part} (h : P s) (f : Frame ps s t) (hps : .hxu ∉ ps ∧ .cap ∉ ps) : P t :=
  K.reads h (f.same .hxu hps.1) (f.same .cap hps.2)

/-! ### The handover (R14, R36) -/

theorem catchUp (h : P s) : P (catchUp s) := by
  have banks := K.frame h (mbcProcess_frame s) (by decide)
  have wells := K.frame banks (wsvProcess_frame _) (by decide)
  have guard := K.frame wells (tgdProcess_frame _) (by decide)
  have scaled := K.frame (K.heat guard) (scmProcess_frame _) (by decide)
  exact K.capture scaled

theorem handOver (h : P s) : P (handOver s) := by
  have ready : P (converted s) := K.frame (K.catchUp h) (converted_frame s) (by decide)
  rw [handOver_eq]
  generalize converted s = u at ready ⊢
  exact K.reads ready rfl rfl

theorem judgeFrame (f : LoopFrame) (h : P s) : P (judgeFrame f s) := by
  rcases judgeFrame_handsOver f s with kept | ⟨u, kept, e⟩
  · exact K.frame h kept (by decide)
  · exact e ▸ K.handOver (K.frame h kept (by decide))

/-! ### Modes and tables -/

theorem setMode (p : List Byte) (h : P s) : P (setMode p s).2 := by
  have leaving : P (enterLeaving s) :=
    K.frame (K.reads (t := { s with mbc := { s.mbc with mode := .leaving } }) h rfl rfl)
      (eitherOrder_frame (fun t => raise_wells _ _ _ t) emptyStartQueue_frame _) (by decide)
  have config : P (setConfig s).2 := by
    unfold setConfig
    split
    · exact h
    · exact K.reads (K.reset h) rfl rfl
    · exact h
    · exact h
  have standby : P (setStandby s).2 := by
    unfold setStandby
    repeat' split
    · exact h
    · exact K.reads h rfl rfl
    · exact h
    · exact leaving
    · exact h
  have supervise : P (setSupervise s).2 := by
    unfold setSupervise
    repeat' split
    all_goals exact K.reads h rfl rfl
  unfold Machine.setMode
  repeat' split
  · exact config
  · exact standby
  · exact supervise
  · exact h
  · exact h

theorem store (ref : TableRef) (b : List Byte) (h : P s) : P (ref.store b s).2 := by
  cases ref with
  | heating => exact storeIf_holds h fun r _ => K.heating r s.hxu.curve h
  | heatCurve =>
    show P (storeHeatCurve b s).2
    unfold storeHeatCurve
    split
    · exact h
    · exact storeIf_holds h fun c _ => K.heating s.hxu.cfg c h
  | capture =>
    show P (storeCapture b s).2
    unfold storeCapture
    repeat' split
    · exact h
    · exact h
    · exact storeIf_holds h fun r _ => K.record r h
  | curve i =>
    show P (storeCurve i b s).2
    unfold storeCurve
    split
    · exact h
    · exact storeIf_holds h fun _ _ => K.reads h rfl rfl
  | _ => exact storeIf_holds h fun _ _ => K.reads h rfl rfl

theorem tableWrite (p : List Byte) (h : P s) : P (tableWrite p s).2 := by
  unfold Machine.tableWrite writeTable
  dsimp only
  repeat' split
  · exact h
  · exact h
  · exact h
  · exact K.store _ _ h
  · exact h

/-! ### Every command -/

theorem handlerFrame {ps : List Part} {handler : Handler} (f : HandlerFrame ps handler) (hps : .hxu ∉ ps ∧ .cap ∉ ps) :
    HandlerKeeps P handler := fun p s h => K.frame h (f p s) hps

theorem handlers : ∀ handler ∈ handlers, HandlerKeeps P handler := by
  simp only [Machine.handlers, List.cons_append, List.nil_append, List.forall_mem_cons, List.not_mem_nil, false_imp_iff,
    implies_true, and_true]
  refine ⟨K.handlerFrame ident_frame ?_, K.handlerFrame status_frame ?_, fun p _ => K.setMode p, K.handlerFrame restart_frame ?_,
    fun p _ => K.tableWrite p, K.handlerFrame tableRead_frame ?_, K.handlerFrame stage_frame ?_,
    K.handlerFrame publishBank_frame ?_, K.handlerFrame readBank_frame ?_, K.handlerFrame resume_frame ?_,
    K.handlerFrame wellCmd_frame ?_, K.handlerFrame readWells_frame ?_, K.handlerFrame turbineCmd_frame ?_,
    K.handlerFrame readTurbine_frame ?_, K.handlerFrame outputCmd_frame ?_, K.handlerFrame readOutputs_frame ?_,
    K.handlerFrame force_frame ?_, K.handlerFrame unforce_frame ?_, K.handlerFrame trim_frame ?_,
    K.handlerFrame readChannels_frame ?_, K.handlerFrame setLab_frame ?_, K.handlerFrame ackAlarm_frame ?_,
    K.handlerFrame readScale_frame ?_, K.handlerFrame readHeat_frame ?_, K.clear, K.handlerFrame readLoop_frame ?_,
    K.handlerFrame fetchEvents_frame ?_, K.command, K.handlerFrame readCapture_frame ?_, K.handlerFrame timeSet_frame ?_,
    K.handlerFrame timeSync_frame ?_⟩
  all_goals decide

theorem anyFrame (kind : Byte) (r : Request) (h : P s) : P (anyFrame kind r s) := by
  have keeps : HandlerKeeps P (handlerOf kind) := by
    rcases handlerOf_mem kind with known | unknown
    · exact K.handlers _ known
    · exact unknown ▸ K.handlerFrame unknown_frame (by decide)
  unfold Machine.anyFrame goodFrame
  split
  · exact K.reads h rfl rfl
  · exact K.reads (keeps r.payload s.hears (K.reads h rfl rfl)) rfl rfl

theorem completeFrame (kind : Byte) (r : Request) (crc : Word) (h : P s) : P (completeFrame kind r crc s) := by
  unfold Machine.completeFrame
  split
  · exact K.anyFrame kind r h
  · exact K.reads h rfl rfl

theorem takeByte (b : Byte) (h : P s) : P (takeByte b s) := by
  have fresh : P (if dueAt s.now s.gapTimer then receiver .hunt s else s) := by
    split
    · exact K.reads h rfl rfl
    · exact h
  unfold Machine.takeByte
  generalize (if dueAt s.now s.gapTimer then receiver .hunt s else s) = u at fresh ⊢
  unfold judgeByte completeBody
  repeat' split
  case h_1 => exact K.completeFrame _ _ _ fresh
  all_goals exact K.reads fresh rfl rfl

theorem restartNow (h : P s) : P (restartNow s) := K.reads (K.reset h) rfl rfl

theorem replyEnds (h : P s) : P (replyEnds s) := by
  unfold Machine.replyEnds emptyBuffer
  repeat' split
  · exact h
  · exact K.restartNow (K.reads (t := s.reachEnd _) h rfl rfl)
  · exact K.reads h rfl rfl

theorem restartEnds (h : P s) : P (restartEnds s) := by
  unfold Machine.restartEnds
  repeat' split
  · exact h
  · exact K.restartNow (K.reads (t := s.reachEnd _) h rfl rfl)
  · exact h

/-- Every command keeps the invariant: a frame by its handler, the two blocks' jobs, the resets and a handover by the fields above,
and the rest because they leave HXU and CAP alone. -/
theorem exec {c : Instr} (h : P s) (e : exec c s = .next t) : P t := by
  cases hf : c.frame with
  | some p => exact Keeps.live h (K.anyFrame p.1 p.2 h) ((exec_frameRow s hf).symm.trans e)
  | none =>
    cases c with
    | restartEffect => exact Keeps.live h (K.restartEnds h) e
    | crcMismatchDiscard kind r crc => exact Keeps.live h (K.completeFrame kind r crc h) e
    | badLenDiscard b => exact Keeps.live h (K.takeByte b h) e
    | replySent => exact Keeps.live h (K.replyEnds h) e
    | powerOnReset straps => exact Host.Outcome.next.inj e ▸ K.power straps s
    | frameJudge f => exact Keeps.live h (K.judgeFrame f h) e
    | hxuProcessSnapshot => exact Keeps.live h (K.heat h) e
    | capProcessSnapshot => exact Keeps.live h (K.capture h) e
    | framingErrorAbandon | gapAbandon | resetPinLow | candidateMatch | candidateConfirm | candidateFail | huntIntervalExpiry
    | searchDwellExpiry | lineSilenceTimeout | blindTimerExpiry | outboundScanStart | outboundFrameStart | mbcProcessSnapshot
    | hostTimerExpiry | wsvProcessSnapshot | startTimerExpiry | staggerTimerExpiry | tgdProcessSnapshot | permissiveHoldExpiry
    | scmProcessSnapshot | clockAdvance =>
      exact K.frame h (exec_frame e) (by simp [Instr.parts])
    | _ => exact nomatch hf

/-- An idle step moves the time base and the queue alone, and any other step runs a command. -/
theorem step (h : P s) (e : step s = .next t) : P t := by
  unfold Machine.step at e
  split at e
  · obtain rfl := Host.Outcome.next.inj e
    unfold tick
    split
    · exact h
    · exact K.reads h rfl rfl
  · refine K.exec ?_ e
    exact K.reads h rfl rfl

end KeepsStores

/-! ## HXU's operations, each said once -/

theorem deliverHeat_eq (d : Int) (s : State) : deliverHeat d s =
    if s.view.mode = .supervise ∨ s.view.mode = .leaving then deliver .heatValve d s else s :=
  if_congr decide_eq_true_iff rfl rfl

theorem duty_sub (flow cp a b : Int) : duty flow cp (a - b) = if b < a then roundDiv (flow * cp * (a - b)) 100000 else 0 :=
  if_congr sub_pos rfl rfl

theorem HeatingRecord.planInputs_iff (c : HeatingRecord) (v : View) : c.planInputs v = true ↔
    v.chans[c.outdoor].quality ≠ .stale ∧ v.chans[c.districtReturn].quality ≠ .stale ∧
    v.chans[c.districtFlow].quality ≠ .stale ∧ v.chans[c.brineInlet].quality ≠ .stale ∧
    v.chans[c.brineFlow].quality ≠ .stale := by
  simp only [planInputs, Bool.and_eq_true, usable_iff, View.reading, and_assoc]

theorem HeatingRecord.meterInputs_iff (c : HeatingRecord) (v : View) : c.meterInputs v = true ↔
    v.chans[c.districtSupply].quality ≠ .stale ∧ v.chans[c.districtReturn].quality ≠ .stale ∧
    v.chans[c.districtFlow].quality ≠ .stale := by
  simp only [meterInputs, Bool.and_eq_true, usable_iff, View.reading, and_assoc]

/-- The report of an input: STALE now, and not marked before (R121). -/
theorem noteInput_eq (s : State) (i : Fin 7) : noteInput s i =
    let ch := s.hxu.cfg.inputs[i]
    let stale := decide (s.view.chans[ch].quality = .stale)
    raiseIf (stale && !s.hxu.inputMarks[i]) .heatInputStale ch.val i.val
      { s with hxu := { s.hxu with inputMarks := s.hxu.inputMarks.set i stale } } := by
  have stale (r : Reading) : (!r.usable) = decide (r.quality = .stale) := by
    rw [Bool.eq_iff_iff, not_usable_iff, decide_eq_true_iff]
  unfold noteInput
  simp only [stale]
  rfl

/-! ### The floor (R122, R123) -/

theorem heldNext_eq (v : Validity) (n : Nat) : heldNext v n = if v = .held then min 255 (n + 1) else 0 := by
  cases v <;> rfl

theorem floorTrusted_iff (v : Validity) (held limit : Nat) : floorTrusted v held limit = true ↔
    v = .valid ∨ (v = .held ∧ held ≤ limit) := by
  cases v <;> simp [floorTrusted]

theorem HeatingRecord.floor_some (c : HeatingRecord) (held : Nat) (r : PointResult) {trusted : Prop} [Decidable trusted]
    (h : floorTrusted r.validity held c.floorHold = true ↔ trusted) : c.floor held (some r) =
    (if trusted then .point else .fallback, max c.absFloor (if trusted then r.tFloor else c.fallFloor)) := by
  unfold floor
  by_cases trust : trusted
  · simp only [h.mpr trust, trust, if_true]
  · simp only [if_neg (mt h.mp trust), trust, if_false]

/-- A change between the point and the fallback is reported, and a source that was ABSOLUTE is not (R123). -/
theorem raiseAll_floorReport (trusted : Prop) [Decidable trusted] (was : FloorSource) (p : PointNo) (fall floor : Int) (t : State) :
    raiseAll (floorReport was (if trusted then .point else .fallback) p fall floor) t =
      if trusted ∧ was = .fallback then raise .heatFloorPoint p.val floor t
      else if ¬trusted ∧ was = .point then raise .heatFloorFallback p.val fall t
      else t := by
  by_cases trust : trusted
  · cases was <;> simp [floorReport, trust, raiseAll, raiseOne]
  · cases was <;> simp [floorReport, trust, raiseAll, raiseOne]

theorem hxuFloor_none {s : State} (h : s.hxu.cfg.floorPoint = none) : hxuFloor s =
    { s with hxu := { s.hxu with fig := { s.hxu.fig with source := .absolute, tFl := s.hxu.cfg.absFloor } } } := by
  simp only [hxuFloor, h, Option.map_none, HeatingRecord.floor]

/-! ### The plan (R124 to R126) -/

theorem hxuPlan_usable {s : State} {tSp qReq qAvail : Int} (h : s.hxu.cfg.planInputs s.view = true)
    (setpoint : s.hxu.setpoint s.view = tSp) (required : s.hxu.required s.view tSp = qReq)
    (available : s.hxu.available s.view s.hxu.fig.tFl = qAvail) : hxuPlan s =
    { s with hxu := { s.hxu with
        planHeld := false
        fig := { s.hxu.fig with
          tSp := tSp, qReq := qReq, qAvail := qAvail, qPlan := min qReq qAvail
          plan := planDemand (min qReq qAvail) s.hxu.cfg.qRated } } } := by
  subst available required setpoint
  exact if_pos h

/-! ### The outlet guard (R128, R129) -/

section guard

variable {outlet : Reading} {s : State}

theorem guardTest_engaged (h : s.hxu.engaged = true) : guardTest outlet s = s := if_pos h

theorem guardTest_disengaged (h : s.hxu.engaged = false) : guardTest outlet s = guardEngage outlet s := if_neg (by simp [h])

theorem guardMove_engaged (h : s.hxu.engaged = true) : guardMove outlet s = guardAdjust outlet s := if_pos h

theorem guardMove_disengaged (h : s.hxu.engaged = false) : guardMove outlet s = s := if_neg (by simp [h])

theorem guardEngage_stale (h : outlet.quality = .stale) : guardEngage outlet s = s := by
  have unusable : ¬(outlet.usable = true ∧ s.hxu.cfg.guardPersistence ≤ s.hxu.guardCount) := fun k =>
    (usable_iff outlet).mp k.1 h
  simp only [guardEngage, persist_eq, if_pos h, if_neg unusable]

theorem guardEngage_usable (h : outlet.quality ≠ .stale) : guardEngage outlet s =
    let n := if outlet.value < s.hxu.fig.tFl - s.hxu.cfg.guardBand then min 255 (s.hxu.guardCount + 1) else 0
    if s.hxu.cfg.guardPersistence ≤ n then
      raise .heatGuardOn 0 outlet.value { s with hxu := { s.hxu with engaged := true, guardCount := 0 } }
    else { s with hxu := { s.hxu with guardCount := n } } := by
  simp only [guardEngage, persist_eq, if_neg h, (usable_iff outlet).mpr h, true_and]

theorem guardAdjust_stale (h : outlet.quality = .stale) : guardAdjust outlet s = s :=
  if_pos ((not_usable_iff outlet).mpr h)

theorem guardAdjust_usable (h : outlet.quality ≠ .stale) : guardAdjust outlet s =
    let r := s.hxu.reduction
    if outlet.value < s.hxu.fig.tFl then { s with hxu := { s.hxu with reduction := min 1000 (r + s.hxu.cfg.guardStep) } }
    else if s.hxu.fig.tFl + s.hxu.cfg.guardBand ≤ outlet.value then
      if max 0 (r - s.hxu.cfg.guardStep) = 0 then
        raise .heatGuardOff 0 0 { s with hxu := { s.hxu with reduction := 0, engaged := false, guardCount := 0 } }
      else { s with hxu := { s.hxu with reduction := max 0 (r - s.hxu.cfg.guardStep) } }
    else s :=
  if_neg (mt (not_usable_iff outlet).mp h)

end guard

/-! ### The meter and the deficit (R130 to R132) -/

theorem hxuMeter_stale {s : State} (h : ¬s.hxu.cfg.meterInputs s.view = true) : hxuMeter s = s := if_neg h

/-- The unit with the delivered duty of a view. -/
def Hxu.meterDuty (h : Hxu) (v : View) : Hxu := { h with fig := { h.fig with qDel := h.delivered v } }

theorem hxuMeter_usable {s : State} (h : s.hxu.cfg.meterInputs s.view = true) : hxuMeter s =
    { s with hxu := match s.view.interval with
      | none => s.hxu.meterDuty s.view
      | some us => (s.hxu.meterDuty s.view).addEnergy (s.hxu.delivered s.view * us.toNat) } := by
  unfold hxuMeter
  rw [if_pos h]
  cases s.view.interval <;> rfl

/-- Available below required. -/
def Hxu.limited (h : Hxu) : Bool := decide (h.fig.qAvail < h.fig.qReq)

/-- The unit with the scaling-limited mark of a deficit judged, before the deficit itself is; `hxuDeficit_eq` ties it to the
model. -/
def Hxu.markLimited (h : Hxu) : Hxu :=
  if h.deficit = true ∧ h.planHeld = false then { h with scalingLimited := h.limited } else h

/-- The mark is all that is judged. -/
theorem Hxu.markLimited_eq (h : Hxu) : h.markLimited = { h with scalingLimited := h.markLimited.scalingLimited } := by
  unfold markLimited
  split <;> rfl

theorem hxuDeficit_eq (s : State) : hxuDeficit s =
    let h := s.hxu
    if h.planHeld = true ∨ ¬h.cfg.meterInputs s.view = true then { s with hxu := h.markLimited }
    else if h.deficit = decide (h.cfg.deficitKw < h.fig.qReq - h.fig.qDel) then
      { s with hxu := { h.markLimited with deficitCount := 0 } }
    else if h.deficitCount + 1 < h.cfg.deficitPersistence then
      { s with hxu := { h.markLimited with deficitCount := h.deficitCount + 1 } }
    else if h.deficit then
      raise .heatDeficitEnd 0 0 { s with hxu := { h with deficit := false, deficitCount := 0, scalingLimited := false } }
    else
      raise .heatDeficit (if h.limited then 1 else 0) (h.fig.qReq - h.fig.qDel)
        { s with hxu := { h with deficit := true, deficitCount := 0, scalingLimited := h.limited } } := by
  obtain ⟨m, marked⟩ : ∃ m, s.hxu.markLimited = { s.hxu with scalingLimited := m } := ⟨_, s.hxu.markLimited_eq⟩
  have mark : (if (s.hxu.deficit && !s.hxu.planHeld) = true then
      { s.hxu with scalingLimited := decide (s.hxu.fig.qAvail < s.hxu.fig.qReq) } else s.hxu) =
      { s.hxu with scalingLimited := m } := (if_congr (by simp) rfl rfl).trans marked
  have waits : (s.hxu.planHeld || !s.hxu.cfg.meterInputs s.view) = true ↔
      s.hxu.planHeld = true ∨ ¬s.hxu.cfg.meterInputs s.view = true := by simp
  unfold hxuDeficit
  dsimp only
  rw [mark, marked]
  exact if_congr waits rfl rfl

/-! ### The job (R121) -/

theorem hxuProcess_idle {s : State} (h : s.todo.hxu = false) : hxuProcess s = s := if_neg (by simp [h])

theorem hxuProcess_waits {s : State} (h : s.todo.hxu = true) : hxuProcess s =
    let taken := { s with todo := { s.todo with hxu := false }, hxu := { s.hxu with lastSnap := some s.view.number } }
    if s.hxu.cfg.enable then hxuPhases taken else deliverHeat 0 taken := if_pos h

/-! ## The energy counter and the residue (R130, R131) -/

/-- What `EnergyInv` reads. -/
def Hxu.meter (h : Hxu) : Nat × Int := (h.energy, h.residue)

theorem EnergyInv.of_meter {s t : State} (h : EnergyInv s) (e : t.hxu.meter = s.hxu.meter) : EnergyInv t := by
  obtain ⟨energy, residue⟩ := Prod.mk.inj e
  unfold EnergyInv
  rwa [energy, residue]

section meter

variable (s : State)

theorem deliverHeat_hxu (d : Int) : (deliverHeat d s).hxu = s.hxu := by
  unfold deliverHeat
  split <;> rfl

theorem hxuInputs_meter : (hxuInputs s).hxu.meter = s.hxu.meter :=
  foldl_keeps (·.hxu.meter) noteInput (fun s i => by rw [noteInput, raiseIf_hxu]; rfl) _ s

theorem hxuFloor_meter : (hxuFloor s).hxu.meter = s.hxu.meter := by
  unfold hxuFloor
  dsimp only
  split
  · rfl
  · rw [raiseAll_hxu]
    rfl

theorem hxuPlan_meter : (hxuPlan s).hxu.meter = s.hxu.meter := by
  unfold hxuPlan
  dsimp only
  split <;> rfl

theorem guardTest_meter (outlet : Reading) : (guardTest outlet s).hxu.meter = s.hxu.meter := by
  unfold guardTest guardEngage
  dsimp only
  repeat' split
  all_goals rfl

theorem guardMove_meter (outlet : Reading) : (guardMove outlet s).hxu.meter = s.hxu.meter := by
  unfold guardMove guardAdjust
  dsimp only
  repeat' split
  all_goals rfl

theorem hxuValve_meter : (hxuValve s).hxu.meter = s.hxu.meter := by
  unfold hxuValve
  rw [deliverHeat_hxu]
  rfl

theorem hxuDeficit_meter : (hxuDeficit s).hxu.meter = s.hxu.meter := by
  have marked : s.hxu.markLimited.meter = s.hxu.meter := by rw [Hxu.markLimited_eq]; rfl
  rw [hxuDeficit_eq]
  dsimp only
  repeat' split
  · exact marked
  · exact marked
  · exact marked
  all_goals rfl

end meter

theorem mjPerKwh_pos : 0 < mjPerKwh := by decide

/-- Whatever is added, whole kilowatt-hours leave the residue, and the counter saturates (R130, R131). -/
theorem Hxu.addEnergy_bounds (h : Hxu) (mj : Int) :
    0 ≤ (h.addEnergy mj).residue ∧ (h.addEnergy mj).residue < mjPerKwh ∧ (h.addEnergy mj).energy ≤ energyMax :=
  ⟨Int.emod_nonneg _ mjPerKwh_pos.ne', Int.emod_lt_of_pos _ mjPerKwh_pos, min_le_left _ _⟩

theorem hxuMeter_energyInv {s : State} (h : EnergyInv s) : EnergyInv (hxuMeter s) := by
  by_cases usable : s.hxu.cfg.meterInputs s.view = true
  · rw [hxuMeter_usable usable]
    cases interval : s.view.interval with
    | none => exact h.of_meter rfl
    | some us => exact Hxu.addEnergy_bounds _ _
  · rwa [hxuMeter_stale usable]

theorem hxuProcess_energyInv {s : State} (h : EnergyInv s) : EnergyInv (hxuProcess s) := by
  cases waits : s.todo.hxu with
  | false => rwa [hxuProcess_idle waits]
  | true =>
    rw [hxuProcess_waits waits]
    dsimp only
    split
    · have planned : EnergyInv (hxuPlan (hxuFloor (hxuInputs
          { s with todo := { s.todo with hxu := false }, hxu := { s.hxu with lastSnap := some s.view.number } }))) :=
        h.of_meter (((hxuPlan_meter _).trans (hxuFloor_meter _)).trans (hxuInputs_meter _))
      have guarded : EnergyInv (hxuGuard _) := planned.of_meter ((guardMove_meter _ _).trans (guardTest_meter _ _))
      exact (hxuMeter_energyInv (guarded.of_meter (hxuValve_meter _))).of_meter (hxuDeficit_meter _)
    · exact h.of_meter (by rw [deliverHeat_hxu]; rfl)

theorem keeps_energyInv : KeepsStores EnergyInv where
  reads h hxu _ := h.of_meter (congrArg Hxu.meter hxu)
  heat := hxuProcess_energyInv
  capture h := h.of_meter (congrArg Hxu.meter ((capProcess_frame _).same .hxu (by decide)))
  clear p s h := by
    unfold clearEnergy
    split
    · exact ⟨le_rfl, mjPerKwh_pos, Nat.zero_le _⟩
    · exact h
  command p s h := h.of_meter (congrArg Hxu.meter ((captureCmd_frame p s).same .hxu (by decide)))
  heating _ _ h := h.of_meter rfl
  record _ h := h.of_meter rfl
  reset h := h.of_meter rfl
  power _ _ := ⟨le_rfl, mjPerKwh_pos, Nat.zero_le _⟩

/-- Settles O55: the meter takes whole kilowatt-hours out of the residue and saturates the counter, CLEAR_ENERGY and power-on bring
both to 0, and nothing else reaches them. -/
theorem energyInvKept : Obligations.EnergyInvKept := fun _ _ h e => keeps_energyInv.step h e

/-! ## HXU at a snapshot (R121 to R127) -/

/-- Settles O41: the job by the enable, and then each phase by its own equation. -/
theorem heatPlanned : Obligations.HeatPlanned := by
  refine ⟨fun s live => ?job, fun s i => ?input, fun s => ⟨fun absolute => ?absolute, fun p point => ?point⟩, fun s => ?plan⟩
  case job =>
    rw [exec_hxuProcessSnapshot live]
    refine ⟨fun idle => congrArg _ (hxuProcess_idle idle), fun waits off => ?_, fun waits on => ?_, deliverHeat_eq _ _⟩
    · rw [hxuProcess_waits waits, if_neg (by simp [off]), deliverHeat_eq]
    · rw [hxuProcess_waits waits, if_pos on]
      rfl
  case input =>
    match i with
    | 0 | 1 | 2 | 3 | 4 | 5 | 6 => exact noteInput_eq s _
  case absolute => exact hxuFloor_none absolute
  case point =>
    intro r held trusted t
    have count : heldNext r.validity s.hxu.heldCount = held := heldNext_eq _ _
    have source := s.hxu.cfg.floor_some held r (floorTrusted_iff r.validity held s.hxu.cfg.floorHold)
    unfold hxuFloor
    simp only [point, Option.map_some]
    rw [count, source]
    exact raiseAll_floorReport trusted _ _ _ _ _
  case plan =>
    intro h value usable all sum tSp qReq qAvail qPlan
    have inputs : h.cfg.planInputs s.view = true ↔ all := HeatingRecord.planInputs_iff _ _
    have required : h.required s.view tSp = qReq := duty_sub _ _ _ _
    have available : h.available s.view h.fig.tFl = qAvail := duty_sub _ _ _ _
    exact ⟨fun ok => hxuPlan_usable (inputs.mpr ok) rfl required available, fun missing => if_neg (mt inputs.mp missing)⟩

/-! ## The guard, the meter and the deficit (R128 to R132) -/

/-- Settles O42: each phase by its own equation. -/
theorem heatGuardedAndMetered : Obligations.HeatGuardedAndMetered := by
  refine ⟨fun s => ?guard, fun s => ?meter⟩
  case guard =>
    intro h outlet usable n adjust
    refine ⟨fun stale => ?_, fun ok engaged => ?_, fun ok off below => ?_, fun ok off reached => ?_⟩
    · have stale : outlet.quality = .stale := not_not.mp stale
      have tested : guardTest outlet s = s := by
        unfold guardTest
        rw [guardEngage_stale stale, ite_self]
      have moved : guardMove outlet s = s := by
        unfold guardMove
        rw [guardAdjust_stale stale, ite_self]
      exact (congrArg (guardMove outlet) tested).trans moved
    · have tested : guardTest outlet s = s := guardTest_engaged engaged
      exact ((congrArg (guardMove outlet) tested).trans (guardMove_engaged engaged)).trans (guardAdjust_usable ok)
    · have tested : guardTest outlet s = { s with hxu := { h with guardCount := n } } :=
        (guardTest_disengaged off).trans ((guardEngage_usable ok).trans (if_neg (not_le.mpr below)))
      exact (congrArg (guardMove outlet) tested).trans (guardMove_disengaged off)
    · have tested : guardTest outlet s =
          raise .heatGuardOn 0 outlet.value { s with hxu := { h with engaged := true, guardCount := 0 } } :=
        (guardTest_disengaged off).trans ((guardEngage_usable ok).trans (if_pos reached))
      exact ((congrArg (guardMove outlet) tested).trans (guardMove_engaged rfl)).trans (guardAdjust_usable ok)
  case meter =>
    intro h value usable all q fig
    have inputs : h.cfg.meterInputs s.view = true ↔ all := HeatingRecord.meterInputs_iff _ _
    have delivered : h.delivered s.view = q := duty_sub _ _ _ _
    have withDuty : h.meterDuty s.view = { h with fig := fig } := by rw [Hxu.meterDuty, delivered]
    refine ⟨fun missing => hxuMeter_stale (mt inputs.mp missing), fun ok unmeasured => ?_, fun us ok measured => ?_, ?_⟩
    · rw [hxuMeter_usable (inputs.mpr ok), unmeasured, withDuty]
    · rw [hxuMeter_usable (inputs.mpr ok), measured, withDuty, delivered]
      rfl
    · intro limited shortfall short h1
      have judged (planned : h.planHeld = false) (ok : all) :
          ¬(h.planHeld = true ∨ ¬h.cfg.meterInputs s.view = true) := by simp [planned, inputs.mpr ok]
      rw [hxuDeficit_eq]
      refine ⟨fun waits => if_pos (waits.imp_right (mt inputs.mp)), fun planned ok same => ?_, fun planned ok moves below => ?_,
        fun planned ok moves reached => ?_⟩
      all_goals refine (if_neg (judged planned ok)).trans ?_
      · exact if_pos same
      · exact (if_neg moves).trans (if_pos below)
      · exact (if_neg moves).trans (if_neg (not_lt.mpr reached))

/-! ## CLEAR_ENERGY, SET_LAB and ACK_ALARM (R131, R137, R150) -/

theorem clearEnergy_checksLength : ChecksLength 0 clearEnergy := fun p s h => by
  unfold clearEnergy
  split <;> [exact absurd rfl h; rfl]

theorem setLab_checksLength : ChecksLength 3 setLab := fun p s h => by
  unfold setLab
  split <;> [exact absurd rfl h; rfl]

theorem ackAlarm_checksLength : ChecksLength 1 ackAlarm := fun p s h => by
  unfold ackAlarm
  split <;> [exact absurd rfl h; rfl]

section point

variable {i : Byte} (a b : Byte) (s : State)

theorem setLab_badIndex (h : 8 ≤ i.toNat) : setLab [i, a, b] s = refuse .badIndex s := by
  simp only [setLab, index?_of_le h]

theorem ackAlarm_badIndex (h : 8 ≤ i.toNat) : ackAlarm [i] s = refuse .badIndex s := by
  simp only [ackAlarm, index?_of_le h]

/-- SET_LAB on a point of the table: the value is checked, is pending and comes back (R137). -/
theorem setLab_point (h : i.toNat < 8) : setLab [i, a, b] s =
    let n : PointNo := ⟨i.toNat, h⟩
    let v : Int := (a ++ b : BitVec 16).toNat
    if 4000 < v then refuse .badValue s
    else answer .ok [a, b] (raise .scaleLab n.val v (s.setPoint n { s.scm.points[n] with pendingLab := some v })) := by
  simp only [setLab, index?_of_lt h]
  exact if_congr Iff.rfl rfl (congrArg (answer .ok · _) (put16_append a b))

/-- ACK_ALARM on a point of the table: use and flag in this order, then the flag is cleared (R150). -/
theorem ackAlarm_point (h : i.toNat < 8) : ackAlarm [i] s =
    let n : PointNo := ⟨i.toNat, h⟩
    let p := s.scm.points[n]
    if p.cfg.inUse = false then refuse .wrongState s
    else if p.res.unack = false then answer .already (put8 p.res.state.code) s
    else answer .ok (put8 p.res.state.code) (s.setPoint n { p with res := { p.res with unack := false } }) := by
  simp only [ackAlarm, index?_of_lt h]
  refine if_congr (by rw [Bool.not_eq_true']) rfl ?_
  cases s.scm.points[(⟨i.toNat, h⟩ : PointNo)].res.unack <;> rfl

end point

theorem AlarmState.code_eq (x : AlarmState) :
    x.code = match x with | .normal => 0 | .watch => 1 | .alarm => 2 := by
  cases x <;> rfl

/-- Settles O43: each request by its checks in order. -/
theorem energyLabAndAlarmRequests : Obligations.EnergyLabAndAlarmRequests := by
  intro r s ready
  refine ⟨fun filled => ?_, fun empty => ?_, exec_badLength ready rfl setLab_checksLength, fun i a b hp h => ?_,
    fun i a b hp h => ?_, exec_badLength ready rfl ackAlarm_checksLength, fun i hp h => ?_, fun i hp h => ?_⟩
  · exact exec_badLength ready rfl clearEnergy_checksLength (mt List.eq_nil_of_length_eq_zero filled)
  · exact exec_replied ready rfl (empty ▸ rfl)
  · exact exec_replied ready rfl (hp ▸ setLab_badIndex a b _ h)
  · intro n v
    rw [exec_request (c := .setLab r) ready rfl, hp, setLab_point a b _ h, apply_ite (fillBuffer _ r)]
    rfl
  · exact exec_replied ready rfl (hp ▸ ackAlarm_badIndex _ h)
  · intro n p code
    have hcode : put8 p.res.state.code = code := congrArg put8 (AlarmState.code_eq _)
    rw [exec_request (c := .ackAlarm r) ready rfl, hp, ackAlarm_point _ h, apply_ite (fillBuffer _ r),
      apply_ite (fillBuffer _ r), ← hcode]
    rfl

end Sys2Proof.Machine

/-! PROOFS. The scaling monitor: the arithmetic of a point with the curve and its floor, the alarm state, and SCM at a snapshot
(R138 to R149). -/

namespace Sys2Proof.Machine

/-! ## Rounding (R142 to R145) -/

section rounding

variable {a b n : Int} (hb : 0 < b)
include hb

theorem le_roundDiv (h : n * b ≤ a) : n ≤ roundDiv a b := by
  obtain ⟨-, low⟩ := roundDiv_error a hb
  by_contra below
  have step : b * (roundDiv a b + 1) ≤ b * n := Int.mul_le_mul_of_nonneg_left (by omega) hb.le
  linarith

theorem roundDiv_le (h : a ≤ n * b) : roundDiv a b ≤ n := by
  obtain ⟨high, -⟩ := roundDiv_error a hb
  by_contra above
  have step : b * (n + 1) ≤ b * roundDiv a b := Int.mul_le_mul_of_nonneg_left (by omega) hb.le
  linarith

theorem roundDiv_nonneg (h : 0 ≤ a) : 0 ≤ roundDiv a b := le_roundDiv hb (by rwa [zero_mul])

theorem abs_roundDiv_error (a : Int) : 2 * |a - b * roundDiv a b| ≤ b := by
  obtain ⟨high, low⟩ := roundDiv_error a hb
  have error : |a - b * roundDiv a b| * 2 ≤ b := by
    rcases abs_cases (a - b * roundDiv a b) with ⟨e, -⟩ | ⟨e, -⟩ <;> rw [e] <;> linarith
  linarith

/-- A number halfway between two multiples is rounded away from zero: up, when it is not negative. -/
theorem le_roundDiv_of_tie (h : 0 ≤ a) (tie : 2 * |a - b * roundDiv a b| = b) : a ≤ b * roundDiv a b := by
  have quotient : roundDiv a b = (2 * a + b) / (2 * b) := if_pos h
  have below : 2 * a + b < 2 * b * ((2 * a + b) / (2 * b)) + 2 * b := Int.lt_mul_ediv_self_add (by omega)
  by_contra above
  rw [abs_of_pos (by omega), quotient] at tie
  linarith

theorem abs_le_of_roundDiv_tie (tie : 2 * |a - b * roundDiv a b| = b) : |a| ≤ |b * roundDiv a b| := by
  rcases le_or_gt 0 a with h | h
  · rw [abs_of_nonneg h]
    exact (le_roundDiv_of_tie hb h tie).trans (le_abs_self _)
  · have mirror : roundDiv a b = -roundDiv (-a) b := by
      rw [roundDiv, roundDiv, if_neg h.not_ge, if_pos (by omega)]
    rw [mirror, mul_neg, sub_neg_eq_add] at tie
    rw [mirror, mul_neg, abs_neg, abs_of_neg h]
    refine (le_roundDiv_of_tie hb (by omega) ?_).trans (le_abs_self _)
    rwa [← abs_neg, neg_sub, sub_neg_eq_add, add_comm]

/-- The quotient rounded up is the least whole number that is not below the quotient. -/
theorem ceilDiv_bounds (a : Int) : (ceilDiv a b - 1) * b < a ∧ a ≤ ceilDiv a b * b := by
  have lower := Int.ediv_mul_le (-a) hb.ne'
  have upper := Int.lt_ediv_add_one_mul_self (-a) hb
  unfold ceilDiv
  constructor <;> linarith

end rounding

theorem effective_bounds {c cf : Int} (c0 : 0 ≤ c) (c1 : c ≤ 65535) (cf0 : 0 ≤ cf) (cf1 : cf ≤ 4000) :
    0 ≤ effective c cf ∧ effective c cf ≤ 262140 := by
  have product : c * cf ≤ 65535 * 4000 := Int.mul_le_mul c1 cf1 cf0 (by decide)
  exact ⟨roundDiv_nonneg (by decide) (Int.mul_nonneg c0 cf0), roundDiv_le (by decide) product⟩

theorem saturation_bounds {cEff : Int} (h : 0 ≤ cEff) (sol : Int) : 0 ≤ saturation cEff sol ∧ saturation cEff sol ≤ 65535 := by
  unfold saturation
  split
  · next positive =>
    have quotient : 0 ≤ roundDiv (cEff * 1000) sol := roundDiv_nonneg positive (by omega)
    omega
  · decide

/-! ## Curves as ordered lists (R120, R135) -/

theorem strictlyRising_iff (l : List CurvePoint) : strictlyRising l = true ↔ l.Pairwise fun p q => p.x < q.x := by
  rw [← List.pairwise_map, ← List.isChain_iff_pairwise]
  induction l using strictlyRising.induct with
  | case1 => simp [strictlyRising]
  | case2 => simp [strictlyRising]
  | case3 p q rest ih => simp_all [strictlyRising]

theorem notFalling_iff (l : List CurvePoint) : notFalling l = true ↔ l.Pairwise fun p q => p.y ≤ q.y := by
  rw [← List.pairwise_map, ← List.isChain_iff_pairwise]
  induction l using notFalling.induct with
  | case1 => simp [notFalling]
  | case2 => simp [notFalling]
  | case3 p q rest ih => simp_all [notFalling]

section ordered

variable {before rest : List CurvePoint} {p : CurvePoint}

theorem rising_before (rising : strictlyRising (before ++ p :: rest) = true) : ∀ r ∈ before, r.x < p.x := fun r hr =>
  (List.pairwise_append.mp ((strictlyRising_iff _).mp rising)).2.2 r hr p List.mem_cons_self

theorem rising_segment {u v : CurvePoint} (rising : strictlyRising (before ++ u :: v :: rest) = true) : u.x < v.x :=
  rising_before (before := before ++ [u]) (p := v) (rest := rest) (by simpa using rising) u (by simp)

theorem notFalling_before (rises : notFalling (before ++ p :: rest) = true) : ∀ r ∈ before, r.y ≤ p.y := fun r hr =>
  (List.pairwise_append.mp ((notFalling_iff _).mp rises)).2.2 r hr p List.mem_cons_self

theorem rising_first_le (rising : strictlyRising (p :: rest) = true) {q : CurvePoint} (hq : q ∈ p :: rest) : p.x ≤ q.x := by
  obtain ⟨first, -⟩ := List.pairwise_cons.mp ((strictlyRising_iff _).mp rising)
  obtain rfl | later := List.mem_cons.mp hq
  · exact le_rfl
  · exact (first q later).le

theorem rising_le_last {l : List CurvePoint} (rising : strictlyRising l = true) (h : l ≠ []) {q : CurvePoint} (hq : q ∈ l) :
    q.x ≤ (l.getLast h).x := by
  have : Std.Refl fun p q : CurvePoint => p.x ≤ q.x := ⟨fun _ => le_rfl⟩
  exact (((strictlyRising_iff l).mp rising).imp le_of_lt).rel_getLast hq

end ordered

/-! ## The curve read (R143) -/

section interpolate

variable {t : Int} {p q : CurvePoint} {rest : List CurvePoint}

theorem interpolate_below (h : t ≤ p.x) (rest : List CurvePoint) : interpolate t (p :: rest) = p.y := by
  cases rest with
  | nil => rfl
  | cons q rest => exact if_pos h

theorem interpolate_segment (hp : p.x < t) (hq : t < q.x) (rest : List CurvePoint) :
    interpolate t (p :: q :: rest) = p.y + roundDiv ((q.y - p.y) * (t - p.x)) (q.x - p.x) :=
  (if_neg hp.not_ge).trans (if_pos hq)

theorem interpolate_beyond (hp : p.x < t) (hq : q.x ≤ t) (rest : List CurvePoint) :
    interpolate t (p :: q :: rest) = interpolate t (q :: rest) :=
  (if_neg hp.not_ge).trans (if_neg hq.not_gt)

/-- The points before one at or below t do not matter. -/
theorem interpolate_append (hp : p.x ≤ t) : ∀ before : List CurvePoint, strictlyRising (before ++ p :: rest) = true →
    interpolate t (before ++ p :: rest) = interpolate t (p :: rest)
  | [], _ => rfl
  | [b], rising => interpolate_beyond ((rising_before rising b (by simp)).trans_le hp) hp rest
  | b :: c :: before, rising => by
    have below := rising_before rising
    have later := (Bool.and_eq_true_iff.mp rising).2
    exact (interpolate_beyond ((below b (by simp)).trans_le hp) ((below c (by simp)).le.trans hp) _).trans
      (interpolate_append hp (c :: before) later)

theorem interpolate_point {l : List CurvePoint} (rising : strictlyRising l = true) (h : q ∈ l) : interpolate q.x l = q.y := by
  obtain ⟨before, after, rfl⟩ := List.append_of_mem h
  exact (interpolate_append le_rfl before rising).trans (interpolate_below le_rfl after)

theorem interpolate_last {l : List CurvePoint} (rising : strictlyRising l = true) (h : l ≠ []) (above : (l.getLast h).x ≤ t) :
    interpolate t l = (l.getLast h).y := by
  have split := List.dropLast_append_getLast h
  rw [← split] at rising
  calc interpolate t l = interpolate t (l.dropLast ++ [l.getLast h]) := by rw [split]
    _ = interpolate t [l.getLast h] := interpolate_append above _ rising

theorem interpolate_between {before after : List CurvePoint} (rising : strictlyRising (before ++ p :: q :: after) = true)
    (hp : p.x < t) (hq : t < q.x) : interpolate t (before ++ p :: q :: after) =
      p.y + roundDiv ((q.y - p.y) * (t - p.x)) (q.x - p.x) :=
  (interpolate_append hp.le before rising).trans (interpolate_segment hp hq after)

/-- A quotient of the rise over a segment lies between no rise and the whole rise. -/
theorem roundDiv_segment {rise part width : Int} (h0 : 0 ≤ part) (h1 : part ≤ width) (hw : 0 < width) :
    min 0 rise ≤ roundDiv (rise * part) width ∧ roundDiv (rise * part) width ≤ max 0 rise := by
  rcases le_total 0 rise with up | down
  · rw [min_eq_left up, max_eq_right up]
    exact ⟨roundDiv_nonneg hw (Int.mul_nonneg up h0), roundDiv_le hw (Int.mul_le_mul_of_nonneg_left h1 up)⟩
  · rw [min_eq_right down, max_eq_left down]
    refine ⟨le_roundDiv hw (Int.mul_le_mul_of_nonpos_left down h1), roundDiv_le hw ?_⟩
    rw [zero_mul]
    exact Int.mul_nonpos_of_nonpos_of_nonneg down h0

theorem interpolate_between_bounds {before after : List CurvePoint} (rising : strictlyRising (before ++ p :: q :: after) = true)
    (hp : p.x < t) (hq : t < q.x) : min p.y q.y ≤ interpolate t (before ++ p :: q :: after) ∧
      interpolate t (before ++ p :: q :: after) ≤ max p.y q.y := by
  rw [interpolate_between rising hp hq]
  have quotient := roundDiv_segment (rise := q.y - p.y) (part := t - p.x) (width := q.x - p.x)
    (by omega) (by omega) (by omega)
  omega

end interpolate

/-! ## The temperature floor (R145) -/

section floor

variable {sReq : Int} {u v : CurvePoint} {after : List CurvePoint}

theorem floorSearch_reached (hu : u.y < sReq) (hv : sReq ≤ v.y) (after : List CurvePoint) :
    floorSearch sReq u (v :: after) = (u.x + ceilDiv ((sReq - u.y) * (v.x - u.x)) (v.y - u.y), false) :=
  (if_neg hv.not_gt).trans (if_neg (by omega))

/-- The search goes past the points below the required solubility. -/
theorem floorSearch_append (hu : u.y < sReq) : ∀ (p : CurvePoint) (before : List CurvePoint), (∀ r ∈ before, r.y < sReq) →
    floorSearch sReq p (before ++ u :: after) = floorSearch sReq u after
  | _, [], _ => if_pos hu
  | p, b :: before, low => by
    obtain ⟨hb, low⟩ := List.forall_mem_cons.mp low
    exact (if_pos hb).trans (floorSearch_append hu b before low)

theorem tempFloor_append (hu : u.y < sReq) {before : List CurvePoint} (low : ∀ r ∈ before, r.y < sReq) :
    tempFloor sReq (before ++ u :: after) = floorSearch sReq u after := by
  cases before with
  | nil => exact if_neg hu.not_ge
  | cons b before =>
    obtain ⟨hb, low⟩ := List.forall_mem_cons.mp low
    exact (if_neg hb.not_ge).trans (floorSearch_append hu b before low)

/-- The floor on the first segment that reaches the required solubility. -/
theorem tempFloor_segment {before : List CurvePoint} (rises : notFalling (before ++ u :: v :: after) = true) (hu : u.y < sReq)
    (hv : sReq ≤ v.y) : tempFloor sReq (before ++ u :: v :: after) =
      (u.x + ceilDiv ((sReq - u.y) * (v.x - u.x)) (v.y - u.y), false) :=
  (tempFloor_append hu fun r hr => (notFalling_before rises r hr).trans_lt hu).trans (floorSearch_reached hu hv after)

theorem tempFloor_unreachable {l : List CurvePoint} (rises : notFalling l = true) (h : l ≠ []) (low : (l.getLast h).y < sReq) :
    tempFloor sReq l = ((l.getLast h).x, true) := by
  have split := List.dropLast_append_getLast h
  have below := notFalling_before (split.symm ▸ rises)
  calc tempFloor sReq l = tempFloor sReq (l.dropLast ++ [l.getLast h]) := by rw [split]
    _ = floorSearch sReq (l.getLast h) [] := tempFloor_append low fun r hr => (below r hr).trans_lt low

/-- A curve that begins below the required solubility and does not end below it has a segment that reaches it. -/
theorem exists_segment : ∀ (p : CurvePoint) (rest : List CurvePoint), p.y < sReq → sReq ≤ ((p :: rest).getLast (by simp)).y →
    ∃ before u v after, p :: rest = before ++ u :: v :: after ∧ u.y < sReq ∧ sReq ≤ v.y
  | p, [], low, reached => absurd reached low.not_ge
  | p, q :: rest, low, reached => by
    by_cases hq : sReq ≤ q.y
    · exact ⟨[], p, q, rest, rfl, low, hq⟩
    · rw [List.getLast_cons_cons] at reached
      obtain ⟨before, u, v, after, split, hu, hv⟩ := exists_segment q rest (not_le.mp hq) reached
      exact ⟨p :: before, u, v, after, congrArg (p :: ·) split, hu, hv⟩

/-- The temperature found on a segment is the lowest at which the segment's line is not below the required solubility, and lies
on the segment. -/
theorem segment_floor_bounds (hx : u.x < v.x) (hu : u.y < sReq) (hv : sReq ≤ v.y) :
    let t := u.x + ceilDiv ((sReq - u.y) * (v.x - u.x)) (v.y - u.y)
    (t - 1 - u.x) * (v.y - u.y) < (sReq - u.y) * (v.x - u.x) ∧ (sReq - u.y) * (v.x - u.x) ≤ (t - u.x) * (v.y - u.y) ∧
      u.x < t ∧ t ≤ v.x := by
  intro t
  have rise : 0 < v.y - u.y := by omega
  have offset : t - u.x = ceilDiv ((sReq - u.y) * (v.x - u.x)) (v.y - u.y) := add_sub_cancel_left _ _
  have least : (t - u.x - 1) * (v.y - u.y) < (sReq - u.y) * (v.x - u.x) := offset ▸ (ceilDiv_bounds rise _).1
  have enough : (sReq - u.y) * (v.x - u.x) ≤ (t - u.x) * (v.y - u.y) := offset ▸ (ceilDiv_bounds rise _).2
  have part : 0 < (t - u.x) * (v.y - u.y) := (Int.mul_pos (by omega) (by omega)).trans_le enough
  have whole : (t - u.x - 1) * (v.y - u.y) < (v.x - u.x) * (v.y - u.y) := least.trans_le <| by
    rw [mul_comm]
    exact Int.mul_le_mul_of_nonneg_left (by omega) (by omega)
  have low := (pos_iff_pos_of_mul_pos part).mpr rise
  have high := lt_of_mul_lt_mul_right whole rise.le
  exact ⟨sub_right_comm t u.x 1 ▸ least, enough, by omega, by omega⟩

/-- At the floor the curve gives the required solubility: the division rounds up, and so the quotient read back is not below. -/
theorem le_interpolate_floor {before : List CurvePoint} {t : Int} (rising : strictlyRising (before ++ u :: v :: after) = true)
    (hv : sReq ≤ v.y) (enough : (sReq - u.y) * (v.x - u.x) ≤ (t - u.x) * (v.y - u.y)) (low : u.x < t) (high : t ≤ v.x) :
    sReq ≤ interpolate t (before ++ u :: v :: after) := by
  obtain rfl | inside := high.eq_or_lt
  · rwa [interpolate_point rising (by simp)]
  · have quotient : sReq - u.y ≤ roundDiv ((v.y - u.y) * (t - u.x)) (v.x - u.x) :=
      le_roundDiv (by omega) (enough.trans_eq (mul_comm _ _))
    rw [interpolate_between rising low inside]
    omega

end floor

theorem tempFloor_on_curve {p : CurvePoint} {rest : List CurvePoint} (sReq : Int) (rising : strictlyRising (p :: rest) = true)
    (rises : notFalling (p :: rest) = true) :
    let f := tempFloor sReq (p :: rest)
    p.x ≤ f.1 ∧ f.1 ≤ ((p :: rest).getLast (by simp)).x ∧ (f.2 = false → sReq ≤ interpolate f.1 (p :: rest)) := by
  intro f
  have ends {q : CurvePoint} (hq : q ∈ p :: rest) := And.intro (rising_first_le rising hq) (rising_le_last rising (by simp) hq)
  rcases le_or_gt sReq p.y with first | first
  · have hf : f = (p.x, false) := if_pos first
    rw [hf, interpolate_below le_rfl]
    exact ⟨le_rfl, (ends List.mem_cons_self).2, fun _ => first⟩
  · rcases lt_or_ge ((p :: rest).getLast (by simp)).y sReq with last | last
    · have hf : f = _ := tempFloor_unreachable rises (by simp) last
      rw [hf]
      exact ⟨(ends (List.getLast_mem _)).1, le_rfl, fun reachable => nomatch reachable⟩
    · obtain ⟨before, u, v, after, split, hu, hv⟩ := exists_segment p rest first last
      have hx : u.x < v.x := rising_segment (split ▸ rising)
      obtain ⟨-, enough, low, high⟩ := segment_floor_bounds hx hu hv
      have hf : f = _ := (congrArg (tempFloor sReq) split).trans (tempFloor_segment (split ▸ rises) hu hv)
      rw [hf]
      refine ⟨(ends (q := u) (by simp [split])).1.trans low.le, high.trans (ends (q := v) (by simp [split])).2, fun _ => ?_⟩
      rw [split] at rising ⊢
      exact le_interpolate_floor rising hv enough low high

/-- Settles O44: the rounding rules first, then the curve read and searched along the segments of an ordered list. -/
theorem pointArithmetic : Obligations.PointArithmetic := by
  refine ⟨fun a b hb => ⟨abs_roundDiv_error hb a, abs_le_of_roundDiv_tie hb⟩, fun c cf => ⟨rfl, effective_bounds⟩,
    fun p rest t rising => ⟨fun low => interpolate_below low.le rest, fun q hq => interpolate_point rising hq,
      fun high => interpolate_last rising (by simp) high.le⟩,
    fun before after p q t rising hp hq => ⟨interpolate_between rising hp hq, interpolate_between_bounds rising hp hq⟩,
    fun cEff sol h => ⟨fun positive => if_pos positive, fun zero => if_neg (by omega), saturation_bounds h sol⟩,
    fun cEff limit positive => ceilDiv_bounds positive _, fun p rest sReq rising rises => ?_⟩
  refine ⟨fun first => if_pos first, tempFloor_unreachable rises (by simp), fun before after u v split _ hu hv => ?_,
    tempFloor_on_curve sReq rising rises⟩
  rw [split] at rising rises ⊢
  have hx : u.x < v.x := rising_segment rising
  obtain ⟨least, enough, -, -⟩ := segment_floor_bounds hx hu hv
  rw [tempFloor_segment rises hu hv]
  exact ⟨rfl, least, enough⟩

/-! ## The alarm state (R148, R149) -/

section alarm

variable {c : PointRecord} {si : Int} {a : Alarm}

theorem Alarm.step_normal_below (h : a.state = .normal) (below : si < c.warn) : a.step c si = a := by
  simp only [step, h, if_neg below.not_ge]

/-- A point that enters WATCH is tested on at the same snapshot, with its alarm count at 0. -/
theorem Alarm.step_normal_reached (h : a.state = .normal) (reached : c.warn ≤ si) :
    a.step c si = Alarm.watch c si { a with state := .watch, alarmCount := 0 } := by
  simp only [step, h, if_pos reached]

theorem Alarm.step_watch (h : a.state = .watch) : a.step c si = Alarm.watch c si a := by
  simp only [step, h]

theorem Alarm.step_alarm (h : a.state = .alarm) : a.step c si = Alarm.falling c si a := by
  simp only [step, h]

end alarm

/-- Settles O45: from NORMAL and WATCH by the tests of a point in WATCH, from ALARM by the test of its end. -/
theorem alarmStateMoved : Obligations.AlarmStateMoved := fun _ _ _ =>
  ⟨Alarm.step_normal_below, Alarm.step_normal_reached, Alarm.step_watch,
    fun h low done => (Alarm.step_alarm h).trans (if_pos ⟨low, done⟩), fun h stays => (Alarm.step_alarm h).trans (if_neg stays),
    fun _ _ _ => rfl⟩

/-! ## The plant concentration factor (R139, R140) -/

theorem Wsv.flowProduced_eq (w : Wsv) (v : View) : w.flowProduced v = (w.wells.toList.map fun x =>
    if x.cfg.role = .production ∧ v.chans[x.cfg.flow].quality ≠ .stale then v.chans[x.cfg.flow].value else 0).sum := by
  refine congrArg List.sum (List.map_congr_left fun x _ => ?_)
  exact if_congr (and_congr_right' (usable_iff _)) rfl rfl

/-- The brine flow: 0 without a channel and at a STALE reading (R139). -/
def State.brineFlow (s : State) : Int :=
  match s.wsv.plant.brine with
  | none => 0
  | some c => if s.view.chans[c].quality = .stale then 0 else s.view.chans[c].value

/-- The plant's brine channel is STALE (R140). -/
def State.brineStale (s : State) : Bool := s.wsv.plant.brine.any fun c => decide (s.view.chans[c].quality = .stale)

theorem State.brineStale_iff (s : State) :
    s.brineStale = true ↔ ∃ c, s.wsv.plant.brine = some c ∧ s.view.chans[c].quality = .stale := by
  rw [brineStale, Option.any_eq_true]
  exact exists_congr fun c => and_congr_right' decide_eq_true_iff

/-- The two flows put into the monitor's record (R139). -/
def State.withFlows (s : State) : State :=
  { s with scm := { s.scm with fProd := s.wsv.flowProduced s.view, fBrine := s.brineFlow } }

/-- CF is computed when the brine flow is above 0; otherwise the event's parameter tells a STALE channel from any other cause. -/
theorem scmFactor_eq (s : State) : scmFactor s =
    if 0 < s.brineFlow then cfComputed s.withFlows else cfNotComputed (if s.brineStale then 1 else 2) s.withFlows := by
  unfold State.withFlows
  cases hb : s.wsv.plant.brine with
  | none =>
    have flow : s.brineFlow = 0 := by rw [State.brineFlow, hb]
    have fresh : s.brineStale = false := by rw [State.brineStale, hb]; rfl
    rw [scmFactor, hb, flow, fresh]
    rfl
  | some c =>
    by_cases stale : s.view.chans[c].quality = .stale
    · have unusable : (s.view.reading c).usable = false := Bool.not_eq_true' _ ▸ (not_usable_iff _).mpr stale
      have flow : s.brineFlow = 0 := by rw [State.brineFlow, hb]; exact if_pos stale
      have isStale : s.brineStale = true := s.brineStale_iff.mpr ⟨c, hb, stale⟩
      simp only [scmFactor, hb, Option.map_some, unusable, flow, isStale]
      rfl
    · have usable : (s.view.reading c).usable = true := (usable_iff _).mpr stale
      have flow : s.brineFlow = (s.view.reading c).value := by rw [State.brineFlow, hb]; exact if_neg stale
      have fresh : s.brineStale = false := by rw [State.brineStale, hb]; exact decide_eq_false stale
      simp only [scmFactor, hb, Option.map_some, usable, flow, fresh]
      rfl

theorem cfNotComputed_eq (why : Int) (t : State) : cfNotComputed why t = match t.scm.cfState with
    | .valid => raise .scaleCfHeld 0 why { t with scm := { t.scm with cfState := .held, cfHeld := 1 } }
    | .held => { t with scm := { t.scm with cfHeld := min 255 (t.scm.cfHeld + 1) } }
    | .none => t := rfl

/-! ## The inputs of a point (R141) -/

theorem Point.silica_eq (p : Point) (v : View) : p.silica v =
    if p.cfg.lab then p.labValue else match p.cfg.silica with
      | none => none
      | some c => if v.chans[c].quality = .stale then none else some v.chans[c].value := by
  unfold Point.silica
  cases p.cfg.silica with
  | none => rfl
  | some c => exact if_congr Iff.rfl rfl ((if_congr (usable_iff _) rfl rfl).trans (ite_not ..))

theorem Scm.accepts_iff (m : Scm) (c : PointRecord) : m.accepts c = true ↔
    c.unity = true ∨ m.cfState = .valid ∨ (m.cfState = .held ∧ m.cfHeld ≤ c.holdLimit) := by
  unfold Scm.accepts
  rw [Bool.or_eq_true]
  cases m.cfState <;> simp

/-- The inputs of a point are all good. -/
abbrev Scm.inputsGood (m : Scm) (v : View) (p : Point) : Prop :=
  v.chans[p.cfg.temp].quality ≠ .stale ∧ p.silica v ≠ none ∧ m.accepts p.cfg = true

theorem Scm.failed_none_iff (m : Scm) (v : View) (p : Point) : (m.failed v p).any id = false ↔ m.inputsGood v p := by
  rw [inputsGood, ← usable_iff, Option.ne_none_iff_isSome]
  simp [failed, View.reading]

/-- The parameter of HELD: 1 for the temperature, 2 for the silica, 4 for the factor (R147). -/
theorem Scm.failed_flags (m : Scm) (v : View) (p : Point) : flagByte (m.failed v p) =
    (if v.chans[p.cfg.temp].quality = .stale then 1 else 0) + (if p.silica v = none then 2 else 0)
      + (if m.accepts p.cfg = true then 0 else 4) := by
  have temp : bit (!(v.reading p.cfg.temp).usable) = if v.chans[p.cfg.temp].quality = .stale then 1 else 0 :=
    if_congr (not_usable_iff _) rfl rfl
  have silica : 2 * bit (p.silica v).isNone = if p.silica v = none then 2 else 0 := by
    rw [mul_bit]
    exact if_congr Option.isNone_iff_eq_none rfl rfl
  have factor : 4 * bit (!m.accepts p.cfg) = if m.accepts p.cfg = true then 0 else 4 := by
    rw [mul_bit]
    cases m.accepts p.cfg <;> rfl
  rw [failed, flagByte_three, temp, silica, factor]

/-! ## A point at a snapshot (R138, R146, R147) -/

section point

variable {s : State} {i : PointNo} {p q : Point} (hp : s.scm.points[i] = p)
include hp

theorem processPoint_unused (unused : p.cfg.inUse = false) : processPoint s i = s :=
  if_pos (by rw [hp, unused]; rfl)

theorem processPoint_good {c : Int} (used : p.cfg.inUse = true) (good : s.scm.inputsGood s.view p)
    (silica : p.silica s.view = some c)
    (hq : p.compute s.scm.curves[p.cfg.curve] s.scm.cf s.view.number s.view.chans[p.cfg.temp].value c = q) :
    processPoint s i = raiseAll (Point.computeReports i p q) (s.setPoint i q) := by
  simp only [processPoint, hp, used, (Scm.failed_none_iff _ _ _).mpr good, silica]
  exact hq ▸ rfl

theorem processPoint_failed (used : p.cfg.inUse = true) (bad : ¬s.scm.inputsGood s.view p) : processPoint s i =
    raiseAll (Point.holdReports i (flagByte (s.scm.failed s.view p)) p p.hold) (s.setPoint i p.hold) := by
  have failed := Bool.of_not_eq_false (mt (Scm.failed_none_iff _ _ _).mp bad)
  simp only [processPoint, hp, used, failed]
  rfl

end point

/-- The events of a computed result in order: VALID, FLOOR_UNREACHABLE, ALARM or ALARM_END (R138). -/
theorem Point.computeReports_eq (i : PointNo) (p q : Point) : computeReports i p q =
    (if p.res.validity = .held ∨ (p.res.validity = .invalid ∧ p.computed = true) then [⟨.scaleValid, i.val, q.res.si⟩] else [])
      ++ (if q.res.unreachable = true ∧ ¬(p.computed = true ∧ p.res.unreachable = true) then
          [⟨.scaleFloorUnreachable, i.val, requiredSolubility q.res.cEff q.cfg.limit⟩] else [])
      ++ alarmReport p.res.state q.res.state i q.res.si := by
  unfold computeReports
  refine congrArg (_ ++ · ++ _) (if_congr (and_congr_right' ?_) rfl rfl)
  rw [Bool.not_eq_true', decide_eq_false_iff_not]

/-- A result held: no event while INVALID, HELD or nothing from VALID, nothing or INVALID from HELD (R147). -/
theorem Point.raiseAll_hold (p : Point) (i : PointNo) (failed : Int) (s : State) :
    let n := min 255 (p.heldCount + 1)
    raiseAll (holdReports i failed p p.hold) (s.setPoint i p.hold) = match p.res.validity with
      | .invalid => s.setPoint i { p with heldCount := n }
      | .valid =>
        if n ≤ p.cfg.holdLimit then
          raise .scaleHeld i.val failed (s.setPoint i { p with heldCount := n, res := { p.res with validity := .held } })
        else s.setPoint i { p with heldCount := n, res := { p.res with validity := .invalid } }
      | .held =>
        if n ≤ p.cfg.holdLimit then s.setPoint i { p with heldCount := n, res := { p.res with validity := .held } }
        else raise .scaleInvalid i.val n (s.setPoint i { p with heldCount := n, res := { p.res with validity := .invalid } }) := by
  intro n
  unfold holdReports hold
  cases p.res.validity with
  | invalid => rfl
  | valid => by_cases kept : n ≤ p.cfg.holdLimit <;> simp only [n, kept] <;> rfl
  | held => by_cases kept : n ≤ p.cfg.holdLimit <;> simp only [n, kept] <;> rfl

/-! ## SCM at a snapshot -/

theorem scmProcess_idle {s : State} (h : s.todo.scm = false) : scmProcess s = s := if_neg (by rw [h]; decide)

theorem scmProcess_due {s : State} (h : s.todo.scm = true) : scmProcess s = (List.finRange 8).foldl processPoint
    (scmFactor { s with todo := { s.todo with scm := false }, scm := { s.scm with lastSnap := some s.view.number } }) := if_pos h

/-- Settles O46: the job, the factor by the brine flow, and a point by its use and its inputs. -/
theorem scmSnapshotProcessed : Obligations.ScmSnapshotProcessed := by
  refine ⟨fun s hs => ⟨fun idle => ?idle, fun due => ?due⟩, fun s => ?factor, fun s i => ?point⟩
  case idle => rw [exec_scmProcessSnapshot hs, scmProcess_idle idle]
  case due => rw [exec_scmProcessSnapshot hs, scmProcess_due due]
  case factor =>
    intro ch flows brine stale m x cf
    have hflows : s.wsv.flowProduced s.view = flows.sum := s.wsv.flowProduced_eq s.view
    have taken : s.withFlows = { s with scm := m } := by
      rw [State.withFlows, hflows]
      rfl
    have why : (if s.brineStale then 1 else 2 : Int) = if stale then 1 else 2 := if_congr s.brineStale_iff rfl rfl
    have split := scmFactor_eq s
    rw [taken, why] at split
    exact ⟨fun flowing => split.trans (if_pos flowing),
      fun still => (split.trans (if_neg still.not_gt)).trans (cfNotComputed_eq _ _)⟩
  case point =>
    intro p temp silica accepts put
    have hsilica : p.silica s.view = silica := p.silica_eq s.view
    have haccepts : s.scm.accepts p.cfg = true ↔ accepts := s.scm.accepts_iff p.cfg
    have inputs : s.scm.inputsGood s.view p ↔ temp.quality ≠ .stale ∧ silica ≠ none ∧ accepts := by
      rw [Scm.inputsGood, hsilica, haccepts]
    refine ⟨processPoint_unused rfl, fun c used fresh available ok => ?_, fun used bad => ?_⟩
    · have good := inputs.mpr ⟨fresh, available ▸ Option.some_ne_none c, ok⟩
      exact (processPoint_good rfl used good (hsilica.trans available) rfl).trans
        (congrArg (raiseAll · _) (Point.computeReports_eq i p _))
    · intro n failed kept
      have hfailed : flagByte (s.scm.failed s.view p) = failed := by
        rw [Scm.failed_flags, hsilica]
        exact congrArg (_ + ·) (if_congr haccepts rfl rfl)
      rw [processPoint_failed (p := p) rfl used (mt inputs.mp bad), hfailed]
      exact p.raiseAll_hold i failed s

end Sys2Proof.Machine

/-! PROOFS. The plant clock and the event queue: the invariant of the queue and the line, what raising an event does,
FETCH_EVENTS and STATUS, the clock and its requests, and the records that TABLE_READ gives back (R154 to R162, R175). -/

namespace Sys2Proof.Machine

/-! ## The queue and the line through every operation (R158, R160) -/

/-- At most 64 entries, and the line as R160 gives it: what `QueueInv` says of a part out of reset (R158, R160). -/
def Evq.Sound (q : Evq) : Prop := q.queue.length ≤ 64 ∧ q.attnLow = attention q.queue q.classes

theorem Evq.Sound.take {q : Evq} (h : q.Sound) (e : Entry) : (q.take e).Sound := ⟨q.take_length e h.1, q.take_line e⟩

theorem Evq.Sound.of_eq {q r : Evq} (h : q.Sound) (e : r = q) : r.Sound := e ▸ h

/-- A judgement gives the line that R160 asks for. -/
theorem Evq.judge_sound {q : Evq} (h : q.queue.length ≤ 64) : q.judge.Sound := ⟨h, q.judge_line⟩

section events

variable {s : State} {k : EventKind} {a b : Int}

theorem raise_sound (h : s.evq.Sound) : (raise k a b s).evq.Sound := h.take _

theorem raiseIf_sound {c : Bool} (h : s.evq.Sound) : (raiseIf c k a b s).evq.Sound := by
  unfold raiseIf
  split
  · exact raise_sound h
  · exact h

theorem foldl_sound {α : Type} {f : State → α → State} {l : List α}
    (hf : ∀ (t : State) (x : α), t.evq.Sound → (f t x).evq.Sound) (h : s.evq.Sound) : (l.foldl f s).evq.Sound :=
  foldl_holds (P := fun t => t.evq.Sound) hf l h

theorem raiseAll_sound {es : List Report} (h : s.evq.Sound) : (raiseAll es s).evq.Sound :=
  foldl_sound (fun _ _ => raise_sound) h

theorem eitherOrder_sound {f g : State → State} (hf : ∀ t : State, t.evq.Sound → (f t).evq.Sound)
    (hg : ∀ t : State, t.evq.Sound → (g t).evq.Sound) (h : s.evq.Sound) : (eitherOrder f g s).evq.Sound := by
  rcases eitherOrder_cases f g s with e | e <;> rw [e]
  · exact hg _ (hf _ h)
  · exact hf _ (hg _ h)

end events

section guard
variable {s : State}

theorem setCap_sound (h : s.evq.Sound) : (setCap s).evq.Sound := by
  unfold setCap
  dsimp only
  split
  · exact h
  · exact raise_sound h

theorem takeCause_sound {c : Cause} {stale : Bool} (h : s.evq.Sound) : (takeCause c stale s).evq.Sound := by
  unfold takeCause tripActs
  split
  · exact setCap_sound (raise_sound h)
  · split
    · exact h
    · exact raise_sound h

theorem tgdProcess_sound (h : s.evq.Sound) : (tgdProcess s).evq.Sound := by
  unfold tgdProcess
  split
  · have causes : (tgdCauses { s with todo := { s.todo with tgd := false }, tgd := { s.tgd with view := s.view } }).evq.Sound :=
      foldl_sound (fun _ _ ht => takeCause_sound ht) h
    generalize tgdCauses _ = t at causes ⊢
    have chain : (tgdChain t).evq.Sound := raiseAll_sound causes
    exact chain
  · exact h

theorem chainReset_sound (h : s.evq.Sound) : (chainReset s).evq.Sound := raiseIf_sound h

theorem holdExpiry_sound {st : HoldStep} (h : s.evq.Sound) : (holdExpiry st s).evq.Sound := by
  unfold holdExpiry
  split
  · exact raise_sound h
  · exact h
  · exact h

theorem turbineTrip_sound (h : s.evq.Sound) : (turbineTrip s).2.evq.Sound := by
  unfold turbineTrip
  repeat' split
  · exact h
  · exact h
  · exact takeCause_sound h

theorem turbineReset_sound (h : s.evq.Sound) : (turbineReset s).2.evq.Sound := by
  unfold turbineReset
  repeat' split
  case h_2 => exact raise_sound h
  all_goals exact h

theorem turbineRelease_sound (h : s.evq.Sound) : (turbineRelease s).2.evq.Sound := by
  unfold turbineRelease
  repeat' split
  case h_2 => exact raise_sound h
  all_goals exact h

theorem turbineCmd_sound {p : List Byte} (h : s.evq.Sound) : (turbineCmd p s).2.evq.Sound := by
  unfold turbineCmd
  repeat' split
  · exact turbineTrip_sound h
  · exact turbineReset_sound h
  · exact turbineRelease_sound h
  · exact h
  · exact h

end guard

section wells

variable {s : State} {i : WellNo}

theorem deliverWell_sound (h : s.evq.Sound) : (deliverWell i s).evq.Sound := h

theorem arbiter_sound (h : s.evq.Sound) : (arbiter s).evq.Sound := by
  unfold arbiter
  repeat' split
  · exact h
  · exact raise_sound h
  · exact h

theorem tripWell_sound {c : TripCause} (h : s.evq.Sound) : (tripWell c i s).evq.Sound := by
  unfold tripWell
  dsimp only
  refine deliverWell_sound (raise_sound ?_)
  split <;> exact h

theorem noteBlind_sound {k : EventKind} {r : Reading} {marked : Bool} {put : Bool → Well → Well} (h : s.evq.Sound) :
    (noteBlind k i r marked put s).evq.Sound := by
  unfold noteBlind
  repeat' split
  · exact h
  · exact h
  · exact raise_sound h

theorem noteMotor_sound (h : s.evq.Sound) : (noteMotor i s).evq.Sound := by
  unfold noteMotor
  split
  · exact h
  · exact noteBlind_sound h

theorem testStarting_sound (h : s.evq.Sound) : (testStarting i s).evq.Sound := by
  have motor := noteMotor_sound (i := i) h
  unfold testStarting
  generalize noteMotor i s = t at motor ⊢
  have flow : (noteFlow i t).evq.Sound := noteBlind_sound motor
  dsimp only
  repeat' split
  · exact tripWell_sound motor
  · exact raise_sound flow
  · exact flow

theorem testRunning_sound (h : s.evq.Sound) : (testRunning i s).evq.Sound := by
  have motor := noteMotor_sound (i := i) h
  unfold testRunning
  generalize noteMotor i s = t at motor ⊢
  have flow : (noteFlow i t).evq.Sound := noteBlind_sound motor
  have intake : (noteIntake i (noteFlow i t)).evq.Sound := noteBlind_sound flow
  dsimp only
  repeat' split
  · exact tripWell_sound motor
  · exact tripWell_sound intake
  · exact intake

theorem processWell_sound (h : s.evq.Sound) : (processWell s i).evq.Sound := by
  unfold processWell
  split
  · exact h
  · exact deliverWell_sound (testStarting_sound h)
  · exact deliverWell_sound (testRunning_sound h)
  · exact h

theorem takeResult_sound {f : Int} {r : BalanceResult} (h : s.evq.Sound) : (takeResult f r s).evq.Sound := by
  unfold takeResult
  exact raiseIf_sound (raiseIf_sound h)

theorem wsvBalance_sound (h : s.evq.Sound) : (wsvBalance s).evq.Sound := by
  unfold wsvBalance
  split
  · exact h
  · dsimp only
    split
    · exact takeResult_sound h
    · exact raiseIf_sound h

theorem wsvPhases_sound (h : s.evq.Sound) : (wsvPhases s).evq.Sound := by
  have wells : (wsvWells (wsvCeiling (wsvBalance s))).evq.Sound :=
    foldl_sound (fun _ _ => processWell_sound) (wsvBalance_sound h)
  unfold wsvPhases wsvGrant
  split
  · exact arbiter_sound wells
  · exact wells

/-- A snapshot published in STANDBY brings demands alone (R77). -/
theorem wsvFrozen_sound (h : s.evq.Sound) : (wsvFrozen s).evq.Sound := by
  refine foldl_sound (fun t i ht => ?_) h
  unfold frozenWell
  split <;> exact ht

theorem wsvProcess_sound (h : s.evq.Sound) : (wsvProcess s).evq.Sound := by
  unfold wsvProcess
  split
  · dsimp only
    split
    · exact wsvPhases_sound h
    · exact wsvPhases_sound h
    · exact wsvFrozen_sound h
    · exact wsvFrozen_sound h
  · exact h

theorem startExpiry_sound (h : s.evq.Sound) : (startExpiry i s).evq.Sound := by
  unfold startExpiry
  split
  · exact arbiter_sound (tripWell_sound h)
  · exact h

theorem staggerExpiry_sound (h : s.evq.Sound) : (staggerExpiry s).evq.Sound := by
  unfold staggerExpiry
  split
  · exact arbiter_sound h
  · exact h

theorem unqueueWell_sound (h : s.evq.Sound) : (unqueueWell s i).evq.Sound := by
  unfold unqueueWell
  split
  · exact raise_sound h
  · exact h

theorem emptyStartQueue_sound (h : s.evq.Sound) : (emptyStartQueue s).evq.Sound := by
  have emptied : ((List.finRange 16).foldl unqueueWell s).evq.Sound := foldl_sound (fun _ _ ht => unqueueWell_sound ht) h
  unfold emptyStartQueue
  generalize (List.finRange 16).foldl unqueueWell s = t at emptied ⊢
  exact emptied

theorem wellAct_sound {c : WellCommand} (h : s.evq.Sound) : (wellAct c i s).2.evq.Sound := by
  have stopped (t : State) (ht : t.evq.Sound) : (stopWell 0 i t).evq.Sound := raise_sound ht
  cases c with
  | start =>
    show (wellStart i s).2.evq.Sound
    unfold wellStart
    split
    · exact arbiter_sound (raise_sound h)
    all_goals exact h
  | stop =>
    show (wellStop i s).2.evq.Sound
    unfold wellStop
    split
    · exact stopped s h
    · exact arbiter_sound (stopped _ h)
    · exact stopped s h
    · exact h
  | clear =>
    show (wellClear i s).2.evq.Sound
    unfold wellClear
    split
    · exact raise_sound h
    · exact raise_sound h
    · exact h
  | serviceOut =>
    show (wellServiceOut i s).2.evq.Sound
    unfold wellServiceOut
    dsimp only
    split
    case h_4 => exact h
    all_goals exact raise_sound h
  | serviceIn =>
    show (wellServiceIn i s).2.evq.Sound
    unfold wellServiceIn
    split
    · exact raise_sound h
    · exact h
  | hold | release =>
    show (wellHold _ i s).2.evq.Sound
    unfold wellHold
    split <;> exact h

theorem wellCmd_sound {p : List Byte} (h : s.evq.Sound) : (wellCmd p s).2.evq.Sound := by
  unfold wellCmd
  repeat' split
  case h_2 => exact wellAct_sound h
  all_goals exact h

end wells

section heat

variable {s : State}

theorem hxuFloor_sound (h : s.evq.Sound) : (hxuFloor s).evq.Sound := by
  unfold hxuFloor
  dsimp only
  split
  · exact h
  · exact raiseAll_sound h

theorem guardTest_sound {outlet : Reading} (h : s.evq.Sound) : (guardTest outlet s).evq.Sound := by
  unfold guardTest guardEngage
  dsimp only
  repeat' split
  · exact h
  · exact raise_sound h
  · exact h

theorem guardMove_sound {outlet : Reading} (h : s.evq.Sound) : (guardMove outlet s).evq.Sound := by
  unfold guardMove guardAdjust
  dsimp only
  repeat' split
  case isTrue.isFalse.isFalse.isTrue.isTrue => exact raise_sound h
  all_goals exact h

/-- The valve demand and the meter raise nothing (R127, R130). -/
theorem hxuMeter_sound (h : s.evq.Sound) : (hxuMeter s).evq.Sound := by
  unfold hxuMeter
  dsimp only
  repeat' split
  all_goals exact h

theorem deliverHeat_sound {d : Int} (h : s.evq.Sound) : (deliverHeat d s).evq.Sound := by
  unfold deliverHeat
  split <;> exact h

theorem hxuPlan_sound (h : s.evq.Sound) : (hxuPlan s).evq.Sound := by
  unfold hxuPlan
  dsimp only
  split <;> exact h

theorem hxuDeficit_sound (h : s.evq.Sound) : (hxuDeficit s).evq.Sound := by
  rw [hxuDeficit_eq]
  dsimp only
  repeat' split
  · exact h
  · exact h
  · exact h
  · exact raise_sound h
  · exact raise_sound h
  · exact raise_sound h

theorem hxuPhases_sound (h : s.evq.Sound) : (hxuPhases s).evq.Sound := by
  have inputs : (hxuInputs s).evq.Sound := foldl_sound (fun t i ht => raiseIf_sound ht) h
  have guarded : (hxuGuard (hxuPlan (hxuFloor (hxuInputs s)))).evq.Sound :=
    guardMove_sound (guardTest_sound (hxuPlan_sound (hxuFloor_sound inputs)))
  unfold hxuPhases
  generalize hxuGuard _ = t at guarded ⊢
  have valve : (hxuValve t).evq.Sound := deliverHeat_sound guarded
  exact hxuDeficit_sound (hxuMeter_sound valve)

theorem hxuProcess_sound (h : s.evq.Sound) : (hxuProcess s).evq.Sound := by
  unfold hxuProcess
  split
  · dsimp only
    split
    · exact hxuPhases_sound h
    · exact deliverHeat_sound h
  · exact h

theorem clearEnergy_sound {p : List Byte} (h : s.evq.Sound) : (clearEnergy p s).2.evq.Sound := by
  unfold clearEnergy
  split
  · exact raise_sound h
  · exact h

end heat

section scaling

variable {s : State}

theorem cfNotComputed_sound {why : Int} (h : s.evq.Sound) : (cfNotComputed why s).evq.Sound := by
  unfold cfNotComputed
  dsimp only
  split
  · exact raise_sound h
  · exact h
  · exact h

theorem scmFactor_sound (h : s.evq.Sound) : (scmFactor s).evq.Sound := by
  unfold scmFactor
  dsimp only
  generalize hu : ({ s with scm := _ } : State) = u
  have counted : u.evq.Sound := hu ▸ h
  repeat' split
  · exact cfNotComputed_sound counted
  · exact cfNotComputed_sound counted
  · exact raiseIf_sound counted
  · exact cfNotComputed_sound counted

theorem processPoint_sound {i : PointNo} (h : s.evq.Sound) : (processPoint s i).evq.Sound := by
  unfold processPoint
  dsimp only
  repeat' split
  · exact h
  · exact raiseAll_sound h
  · exact raiseAll_sound h

theorem scmProcess_sound (h : s.evq.Sound) : (scmProcess s).evq.Sound := by
  unfold scmProcess
  split
  · exact foldl_sound (fun _ _ ht => processPoint_sound ht) (scmFactor_sound h)
  · exact h

theorem setLab_sound {p : List Byte} (h : s.evq.Sound) : (setLab p s).2.evq.Sound := by
  unfold setLab
  dsimp only
  repeat' split
  · exact h
  · exact h
  · exact raise_sound h
  · exact h

theorem ackAlarm_sound {p : List Byte} (h : s.evq.Sound) : (ackAlarm p s).2.evq.Sound := by
  unfold ackAlarm
  dsimp only
  repeat' split
  all_goals exact h

end scaling

section capture

variable {s : State}

theorem countPost_sound (h : s.evq.Sound) : (countPost s).evq.Sound := by
  unfold countPost
  dsimp only
  repeat' split
  · exact h
  · exact h
  · exact raise_sound h

theorem decimate_sound (h : s.evq.Sound) : (decimate s).evq.Sound := by
  unfold decimate writeCapture
  split
  · exact h
  · exact countPost_sound (raiseAll_sound h)

theorem trigger_sound {subject : Int} (h : s.evq.Sound) : (trigger subject s).evq.Sound := by
  have triggered : (raise .captTriggered subject s.view.number.toNat
      { s with cap := { s.cap with state := .triggered, post := 0 } }).evq.Sound := raise_sound h
  unfold trigger
  dsimp only
  split
  · exact raise_sound triggered
  · exact triggered

theorem capProcess_sound (h : s.evq.Sound) : (capProcess s).evq.Sound := by
  unfold capProcess
  split
  · dsimp only
    generalize hu : ({ s with todo := _, cap := _ } : State) = u
    have marked : u.evq.Sound := hu ▸ h
    repeat' split
    · exact marked
    · exact marked
    · exact decimate_sound marked
    · exact decimate_sound marked
    · exact trigger_sound marked
    · exact decimate_sound (trigger_sound marked)
  · exact h

theorem captureCmd_sound {p : List Byte} (h : s.evq.Sound) : (captureCmd p s).2.evq.Sound := by
  unfold captureCmd captureStart captureStop captureRearm
  repeat' split
  all_goals exact h

end capture

section clock

variable {s : State}

theorem clockTick_sound (h : s.evq.Sound) : (clockTick s).evq.Sound := raiseIf_sound h

theorem timeSet_sound {p : List Byte} (h : s.evq.Sound) : (timeSet p s).2.evq.Sound := by
  unfold timeSet
  split
  · exact raise_sound h
  · exact h

theorem takeSync_sound {src : SyncSource} {v : BitVec 32} (h : s.evq.Sound) : (takeSync src v s).evq.Sound := by
  unfold takeSync
  exact raiseIf_sound (raiseIf_sound h)

theorem timeSync_sound {p : List Byte} (h : s.evq.Sound) : (timeSync p s).2.evq.Sound := by
  unfold timeSync
  repeat' split
  · exact takeSync_sound h
  · exact takeSync_sound h
  all_goals exact h

/-- Entries leave the queue, and the line is judged again (R159, R160). -/
theorem fetchEvents_sound {p : List Byte} (h : s.evq.Sound) : (fetchEvents p s).2.evq.Sound := by
  have fetched (n : Nat) : (s.evq.fetch n).Sound :=
    Evq.judge_sound (q := { s.evq with queue := s.evq.queue.drop n, overrun := false })
      ((List.drop_sublist n _).length_le.trans h.1)
  unfold fetchEvents
  dsimp only
  repeat' split
  · exact h
  · exact fetched _
  · exact h

/-- The summary flags do not matter to the line (R160). -/
theorem attention_clearSummary (q : Evq) : attention q.queue q.clearSummary.classes = attention q.queue q.classes := by
  simp [attention, Evq.clearSummary]

theorem status_sound {p : List Byte} (h : s.evq.Sound) : (status p s).2.evq.Sound := by
  unfold status
  repeat' split
  · exact h
  · exact ⟨h.1, h.2.trans (attention_clearSummary s.evq).symm⟩
  · exact h
  · exact h

end clock

section modes

variable {s : State}

theorem runtimeReset_sound (h : s.evq.Sound) : (runtimeReset s).evq.Sound := Evq.judge_sound h.1

theorem changeMode_sound {m : Mode} (h : s.evq.Sound) : (changeMode m s).evq.Sound := raise_sound h

theorem setConfig_sound (h : s.evq.Sound) : (setConfig s).2.evq.Sound := by
  unfold setConfig
  split
  · exact h
  · exact changeMode_sound (runtimeReset_sound h)
  · exact h
  · exact h

theorem enterLeaving_sound (h : s.evq.Sound) : (enterLeaving s).evq.Sound :=
  eitherOrder_sound (fun _ ht => raise_sound ht) (fun _ ht => emptyStartQueue_sound ht) h

theorem setStandby_sound (h : s.evq.Sound) : (setStandby s).2.evq.Sound := by
  unfold setStandby
  repeat' split
  · exact h
  · exact changeMode_sound h
  · exact h
  · exact enterLeaving_sound h
  · exact h

theorem setSupervise_sound (h : s.evq.Sound) : (setSupervise s).2.evq.Sound := by
  unfold setSupervise
  repeat' split
  · exact h
  · exact changeMode_sound h
  all_goals exact h

theorem setMode_sound {p : List Byte} (h : s.evq.Sound) : (setMode p s).2.evq.Sound := by
  unfold setMode
  repeat' split
  · exact setConfig_sound h
  · exact setStandby_sound h
  · exact setSupervise_sound h
  · exact h
  · exact h

theorem activate_sound (h : s.evq.Sound) : (activate s).evq.Sound := by
  unfold activate
  split
  · exact h
  · exact raise_sound h

theorem endLeaving_sound (h : s.evq.Sound) : (endLeaving s).evq.Sound := by
  unfold endLeaving
  split
  · exact changeMode_sound h
  · exact h

theorem mbcProcess_sound (h : s.evq.Sound) : (mbcProcess s).evq.Sound := by
  unfold mbcProcess
  split
  · exact endLeaving_sound (foldl_sound (fun _ _ ht => ht) (activate_sound h))
  · exact h

theorem publishBank_sound {p : List Byte} (h : s.evq.Sound) : (publishBank p s).2.evq.Sound := by
  have processed := mbcProcess_sound h
  have filled : (fillPending s).evq.Sound := by
    unfold fillPending
    generalize mbcProcess s = t at processed ⊢
    dsimp only
    split
    · exact processed
    · exact raise_sound processed
  unfold publishBank
  repeat' split
  · exact h
  · exact h
  · exact filled
  · exact h

theorem resume_sound {p : List Byte} (h : s.evq.Sound) : (resume p s).2.evq.Sound := by
  unfold resume
  repeat' split
  · exact h
  · exact raise_sound h
  · exact h

theorem hostExpiry_sound (h : s.evq.Sound) : (hostExpiry s).evq.Sound := by
  unfold hostExpiry
  split
  · exact h
  · exact raise_sound h

end modes

section loop

variable {s : State}

theorem catchUp_sound (h : s.evq.Sound) : (catchUp s).evq.Sound :=
  capProcess_sound (scmProcess_sound (hxuProcess_sound (tgdProcess_sound (wsvProcess_sound (mbcProcess_sound h)))))

theorem convertChannel_sound {scan : ScanBuffer} {i : ChannelNo} (h : s.evq.Sound) : (convertChannel scan s i).evq.Sound := by
  unfold convertChannel
  dsimp only
  split
  · exact h
  · exact raiseAll_sound h

theorem handOver_sound (h : s.evq.Sound) : (handOver s).evq.Sound := by
  have counted {continuous : Bool} : (countSnapshot continuous (catchUp s)).evq.Sound := catchUp_sound h
  have converted : (converted s).evq.Sound := foldl_sound (fun _ _ ht => convertChannel_sound ht) counted
  rw [handOver_eq]
  generalize Machine.converted s = t at converted ⊢
  exact converted

theorem judgeCandidate_sound {w : CandidateWords} (h : s.evq.Sound) : (judgeCandidate w s).evq.Sound := by
  unfold judgeCandidate confirmCandidate failCandidate
  dsimp only
  repeat' split
  · exact h
  · exact h
  · exact raise_sound h
  · exact h
  · exact h

theorem leftLocked_sound {why : Int} (h : s.evq.Sound) : (leftLocked why s).evq.Sound :=
  eitherOrder_sound (fun _ ht => raise_sound ht) (fun _ ht => chainReset_sound ht) h

theorem loseFrames_sound {why : Int} {since : Time} (h : s.evq.Sound) : (loseFrames why since s).evq.Sound := by
  unfold loseFrames
  dsimp only
  split
  · exact leftLocked_sound h
  · exact h

theorem lineSilence_sound (h : s.evq.Sound) : (lineSilence s).evq.Sound := by
  unfold lineSilence
  split
  · exact loseFrames_sound h
  · exact h

theorem countError_sound {k : ErrorKind} (h : s.evq.Sound) : (countError k s).evq.Sound := raiseIf_sound h

theorem afterFrame_sound {expected : Option (Fin 6)} (h : s.evq.Sound) : (afterFrame expected s).evq.Sound := by
  unfold afterFrame
  split
  · exact handOver_sound h
  · exact h

theorem judgeBadAlign_sound (h : s.evq.Sound) : (judgeBadAlign s).evq.Sound := by
  have counted := countError_sound (k := .alignment) h
  unfold judgeBadAlign
  generalize countError .alignment s = t at counted ⊢
  dsimp only
  split
  · exact loseFrames_sound counted
  · exact afterFrame_sound counted

theorem judgeOutOfSequence_sound {index : Nat} (h : s.evq.Sound) : (judgeOutOfSequence index s).evq.Sound := by
  have counted := countError_sound (k := .sequence) h
  unfold judgeOutOfSequence
  generalize countError .sequence s = t at counted ⊢
  dsimp only
  split
  · exact leftLocked_sound counted
  · exact counted

theorem takeFlags_sound {i : Fin 6} {station remote : Bool} (h : s.evq.Sound) : (takeFlags i station remote s).evq.Sound := by
  unfold takeFlags
  exact raiseIf_sound (raiseIf_sound (raiseIf_sound h))

theorem endBlind_sound (h : s.evq.Sound) : (endBlind s).evq.Sound := by
  unfold endBlind
  split
  · exact raise_sound h
  · exact h

theorem qualify_sound {i : Fin 6} (h : s.evq.Sound) : (qualify i s).evq.Sound := by
  unfold qualify enterLocked
  dsimp only
  repeat' split
  · exact h
  · exact endBlind_sound (raise_sound h)
  · exact h

theorem collect_sound {expected : Option (Fin 6)} {taken : Bool} {i : Fin 6} {slots : Vector Word 28} (h : s.evq.Sound) :
    (collect expected taken i slots s).evq.Sound := by
  unfold collect
  split
  · exact afterFrame_sound h
  · exact qualify_sound h

theorem countCheck_sound {good : Bool} (h : s.evq.Sound) : (countCheck good s).evq.Sound := by
  unfold countCheck
  split
  · exact h
  · exact countError_sound h

theorem judgeInSequence_sound {i : Fin 6} {f : LoopFrame} (h : s.evq.Sound) : (judgeInSequence i f s).evq.Sound := by
  unfold judgeInSequence
  exact collect_sound (takeFlags_sound (countCheck_sound h))

theorem judgeFrame_sound {f : LoopFrame} (h : s.evq.Sound) : (judgeFrame f s).evq.Sound := by
  unfold judgeFrame judgeFramed
  dsimp only
  repeat' split
  · exact loseFrames_sound h
  · exact judgeBadAlign_sound h
  · exact judgeOutOfSequence_sound h
  · exact judgeInSequence_sound h
  · exact h

theorem blindExpiry_sound (h : s.evq.Sound) : (blindExpiry s).evq.Sound := by
  have blind {t : State} (ht : t.evq.Sound) : (outBlind t).evq.Sound := by
    unfold outBlind
    split <;> exact ht
  unfold blindExpiry
  split
  · exact h
  · exact eitherOrder_sound (fun _ ht => raise_sound ht) (fun _ ht => takeCause_sound ht) (blind h)

end loop

section port

variable {s : State}

theorem storeIf_sound {α : Type} {r : Option α} {put : α → State} (h : s.evq.Sound)
    (hput : ∀ a, r = some a → (put a).evq.Sound) : (storeIf r put s).2.evq.Sound :=
  storeIf_holds (P := fun t => t.evq.Sound) h hput

/-- CLASS judges the line again at once (R157, R160), and no other table is EVQ's. -/
theorem store_sound {ref : TableRef} {b : List Byte} (h : s.evq.Sound) : (ref.store b s).2.evq.Sound := by
  cases ref with
  | cls i => exact storeIf_sound h fun e _ => Evq.judge_sound h.1
  | curve i =>
    show (storeCurve i b s).2.evq.Sound
    unfold storeCurve
    split
    · exact h
    · exact storeIf_sound h fun _ _ => h
  | heatCurve =>
    show (storeHeatCurve b s).2.evq.Sound
    unfold storeHeatCurve
    split
    · exact h
    · exact storeIf_sound h fun _ _ => h
  | capture =>
    show (storeCapture b s).2.evq.Sound
    unfold storeCapture
    repeat' split
    · exact h
    · exact h
    · exact storeIf_sound h fun _ _ => h
  | failsafe =>
    unfold TableRef.store
    generalize readFailsafe b = read
    exact storeIf_sound h fun _ _ => h
  | _ =>
    unfold TableRef.store
    exact storeIf_sound h fun _ _ => h.of_eq rfl

theorem tableWrite_sound {p : List Byte} (h : s.evq.Sound) : (tableWrite p s).2.evq.Sound := by
  unfold tableWrite writeTable
  dsimp only
  repeat' split
  case isFalse.isFalse => exact store_sound h
  all_goals exact h

/-- A handler keeps the queue sound. -/
abbrev HandlerSound (handler : Handler) : Prop := HandlerKeeps (fun t => t.evq.Sound) handler

theorem HandlerSound.of_frame {ps : List Part} {handler : Handler} (f : HandlerFrame ps handler) (hps : .evq ∉ ps) :
    HandlerSound handler := fun p s h => by
  have same : (handler p s).2.evq = s.evq := (f p s).same .evq hps
  exact h.of_eq same

theorem handlers_sound : ∀ handler ∈ handlers, HandlerSound handler := by
  simp only [handlers, List.cons_append, List.nil_append, List.forall_mem_cons, List.not_mem_nil, false_imp_iff, implies_true,
    and_true]
  refine ⟨.of_frame ident_frame (by decide), fun _ _ => status_sound, fun _ _ => setMode_sound,
    .of_frame restart_frame (by decide), fun _ _ => tableWrite_sound, .of_frame tableRead_frame (by decide),
    .of_frame stage_frame (by decide), fun _ _ => publishBank_sound, .of_frame readBank_frame (by decide),
    fun _ _ => resume_sound, fun _ _ => wellCmd_sound, .of_frame readWells_frame (by decide),
    fun _ _ => turbineCmd_sound, .of_frame readTurbine_frame (by decide), .of_frame outputCmd_frame (by decide),
    .of_frame readOutputs_frame (by decide), .of_frame force_frame (by decide), .of_frame unforce_frame (by decide),
    .of_frame trim_frame (by decide), .of_frame readChannels_frame (by decide), fun _ _ => setLab_sound,
    fun _ _ => ackAlarm_sound, .of_frame readScale_frame (by decide), .of_frame readHeat_frame (by decide),
    fun _ _ => clearEnergy_sound, .of_frame readLoop_frame (by decide), fun _ _ => fetchEvents_sound,
    fun _ _ => captureCmd_sound, .of_frame readCapture_frame (by decide), fun _ _ => timeSet_sound,
    fun _ _ => timeSync_sound⟩

theorem anyFrame_sound {kind : Byte} {r : Request} (h : s.evq.Sound) : (anyFrame kind r s).evq.Sound := by
  have keeps : HandlerSound (handlerOf kind) := by
    rcases handlerOf_mem kind with known | unknown
    · exact handlers_sound _ known
    · exact unknown ▸ .of_frame unknown_frame (by decide)
  unfold anyFrame goodFrame
  split
  · exact h
  · exact keeps r.payload s.hears h

theorem completeFrame_sound {kind : Byte} {r : Request} {crc : Word} (h : s.evq.Sound) :
    (completeFrame kind r crc s).evq.Sound := by
  unfold completeFrame
  split
  · exact anyFrame_sound h
  · exact h

theorem takeByte_sound {b : Byte} (h : s.evq.Sound) : (takeByte b s).evq.Sound := by
  have fresh : (if dueAt s.now s.gapTimer then receiver .hunt s else s).evq.Sound := by split <;> exact h
  unfold takeByte
  generalize (if dueAt s.now s.gapTimer then receiver .hunt s else s) = t at fresh ⊢
  unfold judgeByte completeBody
  repeat' split
  on_goal 7 => exact completeFrame_sound fresh
  all_goals exact fresh

theorem replyEnds_sound (h : s.evq.Sound) : (replyEnds s).evq.Sound := by
  unfold replyEnds emptyBuffer
  repeat' split
  · exact h
  · exact runtimeReset_sound h
  · exact h

theorem restartEnds_sound (h : s.evq.Sound) : (restartEnds s).evq.Sound := by
  unfold restartEnds
  repeat' split
  · exact h
  · exact runtimeReset_sound h
  · exact h

end port

/-! ## The invariant through every command -/

section commands

variable {s : State}

/-- Out of reset the invariant is that of the queue (R158, R160). -/
theorem queueInv_iff (running : s.held = false) : QueueInv s ↔ s.evq.Sound := by
  simp [QueueInv, Evq.Sound, running]

/-- In reset the line rests, and the queue is as it was (R160, R177). -/
theorem queueInv_held (held : s.held = true) : QueueInv s ↔ s.evq.queue.length ≤ 64 ∧ s.evq.attnLow = false := by
  simp [QueueInv, held]

/-- A running command's effect keeps the queue sound; in reset nothing happens. -/
theorem live_queueInv {c : Instr} {f : State → State} {t : State} (h : QueueInv s) (row : exec c s = live s f)
    (hf : s.evq.Sound → (f s).evq.Sound) (e : exec c s = .next t)
    (resets : .held ∉ Instr.parts c := by simp [Instr.parts]) : QueueInv t := by
  have held : t.held = s.held := (exec_frame e).same .held resets
  rw [row] at e
  cases hs : s.held with
  | true =>
    obtain rfl := Host.Outcome.next.inj ((live_held f hs).symm.trans e)
    exact h
  | false =>
    obtain rfl := Host.Outcome.next.inj ((live_next f hs).symm.trans e)
    exact (queueInv_iff (held.trans hs)).mpr (hf ((queueInv_iff hs).mp h))

/-- A command whose parts leave out the queue and the reset keeps the invariant. -/
theorem QueueInv.of_frame {ps : List Part} {t : State} (h : QueueInv s) (f : Frame ps s t) (hq : .evq ∉ ps) (hr : .held ∉ ps) :
    QueueInv t := by
  have evq : t.evq = s.evq := f.same .evq hq
  have held : t.held = s.held := f.same .held hr
  unfold QueueInv
  rw [evq, held]
  exact h

theorem holdReset_queueInv (h : QueueInv s) : QueueInv (holdReset s) := (queueInv_held rfl).mpr ⟨h.1, rfl⟩

theorem powerOn_queueInv (straps : BitVec 2) : QueueInv (powerOn straps s) := (queueInv_iff rfl).mpr ⟨Nat.zero_le _, rfl⟩

end commands

/-- A good frame changes no more than the port's blocks do: the pin alone holds the part in reset. -/
theorem frame_held {c : Instr} {p : Byte × Request} (h : c.frame = some p) : .held ∉ Instr.parts c := by
  cases c <;> cases h <;> simp [Instr.parts]

/-- Every command keeps the invariant: a frame by its handler, a job or a timer by its block, and the rest because they leave
EVQ alone. -/
theorem exec_queueInv {c : Instr} {s t : State} (h : QueueInv s) (e : exec c s = .next t) : QueueInv t := by
  cases hf : c.frame with
  | some p => exact live_queueInv h (exec_frameRow s hf) anyFrame_sound e (frame_held hf)
  | none =>
    cases c with
    | resetPinLow => exact Host.Outcome.next.inj e ▸ holdReset_queueInv h
    | powerOnReset straps => exact Host.Outcome.next.inj e ▸ powerOn_queueInv straps
    | restartEffect => exact live_queueInv h rfl restartEnds_sound e
    | crcMismatchDiscard kind r crc => exact live_queueInv h rfl completeFrame_sound e
    | badLenDiscard b => exact live_queueInv h rfl takeByte_sound e
    | replySent => exact live_queueInv h rfl replyEnds_sound e
    | frameJudge f => exact live_queueInv h rfl judgeFrame_sound e
    | candidateConfirm w | candidateFail w => exact live_queueInv h rfl judgeCandidate_sound e
    | lineSilenceTimeout => exact live_queueInv h rfl lineSilence_sound e
    | blindTimerExpiry => exact live_queueInv h rfl blindExpiry_sound e
    | mbcProcessSnapshot => exact live_queueInv h rfl mbcProcess_sound e
    | hostTimerExpiry => exact live_queueInv h rfl hostExpiry_sound e
    | wsvProcessSnapshot => exact live_queueInv h rfl wsvProcess_sound e
    | startTimerExpiry i => exact live_queueInv h rfl startExpiry_sound e
    | staggerTimerExpiry => exact live_queueInv h rfl staggerExpiry_sound e
    | tgdProcessSnapshot => exact live_queueInv h rfl tgdProcess_sound e
    | permissiveHoldExpiry st => exact live_queueInv h rfl holdExpiry_sound e
    | hxuProcessSnapshot => exact live_queueInv h rfl hxuProcess_sound e
    | scmProcessSnapshot => exact live_queueInv h rfl scmProcess_sound e
    | capProcessSnapshot => exact live_queueInv h rfl capProcess_sound e
    | clockAdvance => exact live_queueInv h rfl clockTick_sound e
    | framingErrorAbandon | gapAbandon | candidateMatch | huntIntervalExpiry | searchDwellExpiry | outboundScanStart
    | outboundFrameStart => exact h.of_frame (exec_frame e) (by simp [Instr.parts]) (by simp [Instr.parts])
    | _ => exact nomatch hf

/-- An idle step moves the time base and the model's own queue alone. -/
theorem tick_queueInv {s : State} (h : QueueInv s) : QueueInv (tick s) := by
  unfold tick
  split
  · exact h
  · exact h

/-- Settles O53: out of reset the queue is sound and in reset its line rests, and an idle step and every command keep both. -/
theorem queueInvKept : Obligations.QueueInvKept := by
  intro s t hs e
  unfold step at e
  split at e
  · obtain rfl := Host.Outcome.next.inj e
    exact tick_queueInv hs
  · next c rest pending =>
    have popped : QueueInv { s with pending := rest } := hs
    exact exec_queueInv popped e

end Sys2Proof.Machine

namespace Sys2Proof.Machine

/-! ## Raising an event (R158) -/

section take

variable {q : Evq} {e : Entry}

/-- Every class but for the summary flag that the event sets (R158). -/
theorem Evq.take_classes : (q.take e).classes = (q.markSummary e.kind.cls).classes := by
  unfold Evq.take Evq.append
  dsimp only
  repeat' split
  all_goals rfl

theorem Evq.take_class : (q.take e).classes[e.kind.cls] = { q.classes[e.kind.cls] with summary := true } := by
  rw [Evq.take_classes]
  exact Vector.getElem_set_self _

theorem Evq.take_class_other {c : Fin 9} (h : c ≠ e.kind.cls) : (q.take e).classes[c] = q.classes[c] := by
  rw [Evq.take_classes]
  exact Vector.getElem_set_ne e.kind.cls.isLt c.isLt fun same => h (Fin.ext same.symm)

/-- With the log enable clear the event leaves no entry. -/
theorem Evq.take_unlogged (off : q.classes[e.kind.cls].log = false) :
    (q.take e).queue = q.queue ∧ (q.take e).overrun = q.overrun := by
  unfold Evq.take
  dsimp only
  rw [if_neg (ne_true_of_eq_false off)]
  exact ⟨rfl, rfl⟩

/-- With the log enable set and room in the queue the entry is the newest. -/
theorem Evq.take_logged (on : q.classes[e.kind.cls].log = true) (room : q.queue.length < 64) :
    (q.take e).queue = q.queue ++ [e] ∧ (q.take e).overrun = q.overrun := by
  unfold Evq.take Evq.append
  dsimp only
  rw [if_pos on, if_pos (show (q.markSummary e.kind.cls).queue.length < 64 from room)]
  exact ⟨rfl, rfl⟩

/-- A full queue gives up its oldest entry and sets the overrun flag. -/
theorem Evq.take_full (on : q.classes[e.kind.cls].log = true) (full : 64 ≤ q.queue.length) :
    (q.take e).queue = q.queue.tail ++ [e] ∧ (q.take e).overrun = true := by
  unfold Evq.take Evq.append
  dsimp only
  rw [if_pos on, if_neg (show ¬(q.markSummary e.kind.cls).queue.length < 64 from Nat.not_lt.mpr full)]
  exact ⟨rfl, rfl⟩

/-- The line after an event, as R160 words it. -/
theorem Evq.take_attnLow_iff : (q.take e).attnLow = true ↔
    (∃ x ∈ (q.take e).queue, (q.take e).classes[x.kind.cls].attend = true) ∨ 32 ≤ (q.take e).queue.length :=
  Evq.judge_attnLow_iff _

end take

/-- Settles O12: raising an event is EVQ taking the stamped entry, and nothing else of the state is written. -/
theorem eventRaised : Obligations.EventRaised := by
  intro k subject param s
  let e := s.entry k subject param
  exact ⟨rfl, Evq.take_class (e := e), fun _ => Evq.take_class_other (e := e), Evq.take_unlogged (e := e),
    Evq.take_logged (e := e), Evq.take_full (e := e), Evq.take_attnLow_iff (e := e)⟩

end Sys2Proof.Machine

namespace Sys2Proof.Machine

/-! ## The plant clock (R154 to R156) -/

section clockTick

variable {s : State}

/-- A clock unit that has run moves the count on by one, and the next period follows on; the wrap raises ROLLOVER (R154). -/
theorem clockTick_due (due : s.mbc.timing.resolution.ms * 1000 ≤ elapsed s.clk.period s.now) : clockTick s =
    raiseIf (decide (s.clk.count + 1 = 0)) .clockRollover 0 0
      { s with clk := { s.clk with
          count := s.clk.count + 1, period := s.clk.period + BitVec.ofNat 48 (s.mbc.timing.resolution.ms * 1000) } } := by
  have ended : s.reachEnd s.clockTimer = s := State.reachEnd_of_due due
  unfold clockTick
  dsimp only
  rw [ended]
  rfl

/-- The count wraps from its greatest value alone. -/
theorem succ_eq_zero_iff (x : BitVec 32) : x + 1 = 0 ↔ x = 0xFFFFFFFF#32 := by bv_omega

end clockTick

theorem timeSet_checksLength : ChecksLength 4 timeSet := fun p s h => by
  unfold timeSet
  split <;> [exact absurd rfl h; rfl]

/-- Settles O14: the tick of a period that has run, and the four bytes that TIME_SET takes. -/
theorem clockAdvancesAndIsSet : Obligations.ClockAdvancesAndIsSet := by
  refine ⟨fun s running => ?_, fun r s ready => ⟨exec_badLength ready rfl timeSet_checksLength, ?_⟩⟩
  · intro unitMs due t
    have unit : s.mbc.timing.resolution.ms = unitMs := by
      simp only [unitMs]; cases s.mbc.timing.resolution <;> rfl
    have tick : exec .clockAdvance s = .next (raiseIf (decide (s.clk.count + 1 = 0)) .clockRollover 0 0 t) := by
      refine (live_next clockTick running).trans ?_
      rw [clockTick_due (unit ▸ due), unit]
    refine ⟨fun h => ?_, fun h => ?_⟩
    · rw [tick, decide_eq_false (mt (succ_eq_zero_iff _).mp h)]; rfl
    · rw [tick, decide_eq_true ((succ_eq_zero_iff _).mpr h)]; rfl
  · rintro a b c d hp v
    exact exec_replied ready rfl (by rw [hp]; rfl)

/-! ## TIME_SYNC (R156) -/

/-- A request refused by TIME_SYNC changes nothing, and its reply still carries the six bytes (log 9). -/
theorem timeSync_badLength {p : List Byte} (s : State) (h : p.length ≠ 5) : timeSync p s = syncAnswer .badLength s := by
  unfold timeSync
  split <;> [exact absurd rfl h; rfl]

section timeSync

variable (a b c d : Byte) (s : State)

theorem timeSync_badValue {q : Byte} (h : 1 < q.toNat) : timeSync [q, a, b, c, d] s = syncAnswer .badValue s := by
  have not0 : q ≠ 0 := by bv_omega
  have not1 : q ≠ 1 := by bv_omega
  simp only [timeSync, if_neg not0, if_neg not1]

theorem timeSync_a : timeSync [0x00#8, a, b, c, d] s = syncAnswer .ok (syncA (a ++ b ++ c ++ d) s) := rfl

theorem timeSync_b : timeSync [0x01#8, a, b, c, d] s =
    if s.syncFree then syncAnswer .ok (takeSync .b (a ++ b ++ c ++ d) s) else syncAnswer .wrongState s := rfl

end timeSync

/-- A sync taken from A: no changeover is raised (R156). -/
theorem takeSync_a (v : BitVec 32) (s : State) : takeSync .a v s =
    raiseIf (decide (s.mbc.timing.stepMs < (v - s.clk.count).toInt.natAbs * s.mbc.timing.resolution.ms)) .clockStep 0
      (v - s.clk.count).toInt { s with clk := { s.clk with count := v, period := s.now, source := .a } } := rfl

/-- A sync taken from B: SOURCE_B where B was not the source, then STEP (R156). -/
theorem takeSync_b (v : BitVec 32) (s : State) : takeSync .b v s =
    raiseIf (decide (s.mbc.timing.stepMs < (v - s.clk.count).toInt.natAbs * s.mbc.timing.resolution.ms)) .clockStep 1
      (v - s.clk.count).toInt (raiseIf (decide (s.clk.source ≠ .b)) .clockSourceB 0 0
        { s with clk := { s.clk with count := v, period := s.now, source := .b } }) := by
  simp only [takeSync, raiseIf_mbc, true_and, if_true]
  rfl

theorem takeSync_clk (src : SyncSource) (v : BitVec 32) (s : State) :
    (takeSync src v s).clk = { s.clk with count := v, period := s.now, source := src } := by
  simp only [takeSync, raiseIf_clk]
  rfl

theorem takeSync_now (src : SyncSource) (v : BitVec 32) (s : State) : (takeSync src v s).now = s.now := by
  simp only [takeSync, raiseIf_now]
  rfl

/-- The six bytes are those of the clock as the request leaves it (log 9). -/
theorem syncAnswer_of_clk {st : Status} {t u : State} (clk : t.clk = u.clk) (now : t.now = u.now) : syncAnswer st t =
    answer st (put32 u.clk.count.toNat ++ put8 u.clk.source.code ++ put8 (sinceA u)) t := by
  unfold syncAnswer sinceA
  rw [clk, now]

/-- A sync from A has just been taken: no second has passed since. -/
theorem sinceA_now {s : State} (h : s.clk.lastA = some s.now) : sinceA s = 0 := by
  simp [sinceA, h, elapsed]

/-- The sync from A answered: the source is A, and no second has passed since. -/
theorem syncAnswer_syncA (v : BitVec 32) (s : State) : syncAnswer .ok (syncA v s) =
    answer .ok (put32 v.toNat ++ put8 1 ++ put8 0)
      (raiseIf (decide (s.mbc.timing.stepMs < (v - s.clk.count).toInt.natAbs * s.mbc.timing.resolution.ms)) .clockStep 0
        (v - s.clk.count).toInt
        { s with clk := { s.clk with count := v, period := s.now, source := .a, lastA := some s.now } }) := by
  let u := { s with clk := { s.clk with count := v, period := s.now, source := .a, lastA := some s.now } }
  have clk : (syncA v s).clk = u.clk := takeSync_clk ..
  have now : (syncA v s).now = u.now := takeSync_now ..
  rw [syncAnswer_of_clk clk now, sinceA_now rfl, syncA, takeSync_a]
  rfl

/-- The sync from B answered: the seconds since the last sync from A run on. -/
theorem syncAnswer_syncB (v : BitVec 32) (s : State) : syncAnswer .ok (takeSync .b v s) =
    answer .ok (put32 v.toNat ++ put8 2 ++ put8 (sinceA s))
      (raiseIf (decide (s.mbc.timing.stepMs < (v - s.clk.count).toInt.natAbs * s.mbc.timing.resolution.ms)) .clockStep 1
        (v - s.clk.count).toInt (raiseIf (decide (s.clk.source ≠ .b)) .clockSourceB 0 0
          { s with clk := { s.clk with count := v, period := s.now, source := .b } })) := by
  let u := { s with clk := { s.clk with count := v, period := s.now, source := .b } }
  rw [syncAnswer_of_clk (u := u) (takeSync_clk ..) (takeSync_now ..), takeSync_b]
  rfl

/-- Settles O15: the five bytes that TIME_SYNC takes, by the source that the first names. -/
theorem timeSyncJudged : Obligations.TimeSyncJudged := by
  intro r s i ready hi since source unitMs asBefore free
  have row : exec i s = live s (goodFrame 0x1F timeSync r) := by rcases hi with rfl | rfl <;> rfl
  have unit : s.mbc.timing.resolution.ms = unitMs := by
    simp only [unitMs]; cases s.mbc.timing.resolution <;> rfl
  have code : s.clk.source.code = source := by
    simp only [source]; cases s.clk.source <;> rfl
  have last : sinceA s = since s.clk.lastA := rfl
  have hfree : s.hears.syncFree = free := rfl
  have refused {st : Status} (h : timeSync r.payload s.hears = syncAnswer st s.hears) :
      exec i s = .next (replied 0x1F r st asBefore s.hears) := by
    refine exec_replied ready row (h.trans ?_)
    rw [syncAnswer_of_clk (t := s.hears) (u := s) rfl rfl, code, last]
  refine ⟨fun h => refused (timeSync_badLength _ h), ?_⟩
  rintro q a b c d hp v diff steps
  rw [hp] at refused
  refine ⟨fun h => refused (timeSync_badValue a b c d _ h), ?_, ?_, ?_⟩
  · rintro rfl held
    refine refused ?_
    rw [timeSync_b, hfree, held]
    rfl
  · rintro rfl
    refine exec_replied ready row ?_
    rw [hp, timeSync_a, syncAnswer_syncA]
    exact congrArg (fun n => answer _ _ (raiseIf (decide (_ < _ * n)) _ _ _ _)) unit
  · rintro rfl taken
    refine exec_replied ready row ?_
    rw [hp, timeSync_b, hfree, taken, if_pos rfl, syncAnswer_syncB]
    exact congrArg (fun n => answer _ _ (raiseIf (decide (_ < _ * n)) _ _ _ _)) unit

end Sys2Proof.Machine

namespace Sys2Proof.Machine

/-! ## FETCH_EVENTS and STATUS (R159, R161) -/

theorem EventKind.code_nonneg (k : EventKind) : 0 ≤ k.code := by cases k <;> decide

/-- A number that is not negative, as a byte. -/
theorem put8_natCast (n : Nat) : put8 n = [BitVec.ofNat 8 n] := by simp [put8]

theorem EventKind.put8_code (k : EventKind) : put8 k.code = [BitVec.ofNat 8 k.code.toNat] := by
  rw [← put8_natCast, Int.toNat_of_nonneg k.code_nonneg]

/-- A value of 32 bits is written alike as a signed and as an unsigned number. -/
theorem put32_toInt (w : BitVec 32) : put32 w.toInt = put32 w.toNat := by simp [put32]

/-- The twelve bytes of an entry: its two codes, its subject, its parameter and its stamp (R159). -/
theorem Entry.bytes_eq (e : Entry) : e.bytes =
    [BitVec.ofNat 8 e.kind.cls.val, BitVec.ofNat 8 e.kind.code.toNat] ++ put16 e.subject.toNat ++ put32 e.param.toNat
      ++ put32 e.stamp.toNat := by
  rw [Entry.bytes, put8_natCast, EventKind.put8_code, put16_toInt, put32_toInt, put32_toInt]
  rfl

theorem fetchEvents_checksLength : ChecksLength 1 fetchEvents := fun p s h => by
  unfold fetchEvents
  split <;> [exact absurd rfl h; rfl]

theorem status_checksLength : ChecksLength 1 status := fun p s h => by
  unfold status
  split <;> [exact absurd rfl h; rfl]

section fetch

variable {n : Byte} (s : State)

theorem fetchEvents_badValue (h : n = 0 ∨ 8 < n.toNat) : fetchEvents [n] s = refuse .badValue s := if_pos h

theorem fetchEvents_ok (least : 1 ≤ n.toNat) (most : n.toNat ≤ 8) : fetchEvents [n] s =
    answer .ok (put8 (s.evq.queue.take n.toNat).length
        ++ put8 (s.evq.queue.length - (s.evq.queue.take n.toNat).length : Nat) ++ put8 (bit s.evq.overrun)
        ++ (s.evq.queue.take n.toNat).flatMap Entry.bytes)
      { s with evq := { s.evq with
          queue := s.evq.queue.drop n.toNat, overrun := false
          attnLow := attention (s.evq.queue.drop n.toNat) s.evq.classes } } :=
  if_neg fun bad => by
    rcases bad with rfl | bad
    · exact absurd least (by decide)
    · omega

end fetch

section status

variable {o : Byte} (s : State)

theorem status_badValue (h : 1 < o.toNat) : status [o] s = refuse .badValue s := by
  have not0 : o ≠ 0 := by bv_omega
  have not1 : o ≠ 1 := by bv_omega
  simp only [status, if_neg not0, if_neg not1]

theorem status_read : status [0x00#8] s = answer .ok (statusBytes s) s := rfl

/-- With option 1 the summary flags are cleared as they are returned (R161). -/
theorem status_clear : status [0x01#8] s = answer .ok (statusBytes s)
    { s with evq := { s.evq with classes := s.evq.classes.map fun e => { e with summary := false } } } := rfl

end status

/-- The rows of STATUS answer alike: the option, not the row, says whether the flags are cleared. -/
theorem exec_status {c : Instr} {r : Request} (h : c = .status r ∨ c = .statusClear r) (s : State) :
    exec c s = live s (goodFrame 0x02 status r) := by
  rcases h with rfl | rfl <;> rfl

/-- The state that a good frame leaves to its handler shows STATUS the same bytes. -/
theorem statusBytes_hears (s : State) : statusBytes s.hears = statusBytes s := rfl

/-- Settles O13: the codes of Table 9-3, the entries that leave the queue, and the bytes of STATUS with their clearing. -/
theorem eventsAndStatusRead : Obligations.EventsAndStatusRead := by
  refine ⟨?_, ?_⟩
  · intro r s ready events codes bytes
    have find (k : EventKind) : events.find? (fun e => decide (e.2.1 = k)) = some (k.cls.val, k, k.code.toNat) := by
      cases k <;> rfl
    have hcodes (k : EventKind) : codes k = [BitVec.ofNat 8 k.cls.val, BitVec.ofNat 8 k.code.toNat] := by
      simp only [codes, find]
    have hbytes : Entry.bytes = bytes := by
      funext e
      simp only [bytes, hcodes, Entry.bytes_eq]
    refine ⟨fun k => ⟨_, _, List.mem_of_find?_eq_some (find k), rfl, hcodes k⟩,
      exec_badLength ready rfl fetchEvents_checksLength, fun n hp bad => ?_, fun n hp least most => ?_⟩
    · exact exec_replied ready rfl (hp ▸ fetchEvents_badValue _ bad)
    · refine exec_replied ready rfl ?_
      rw [hp, fetchEvents_ok _ least most, hbytes]
      rfl
  · intro r s ready flags mode source bytes
    have hbytes : statusBytes s.hears = bytes := by
      have hmode : s.mbc.mode.code = mode := by simp only [mode]; cases s.mbc.mode <;> rfl
      have hsource : s.clk.source.code = source := by simp only [source]; cases s.clk.source <;> rfl
      rw [statusBytes_hears, statusBytes, hmode, hsource]
      rfl
    refine ⟨rfl, fun c hc => ?_⟩
    have row := exec_status hc s
    refine ⟨exec_badLength ready row status_checksLength, fun o hp bad => ?_, fun hp => ?_, fun hp => ?_⟩
    · exact exec_replied ready row (hp ▸ status_badValue _ bad)
    · exact exec_replied ready row (by rw [hp, status_read, hbytes])
    · exact exec_replied ready row (by rw [hp, status_clear, hbytes]; rfl)

end Sys2Proof.Machine

namespace Sys2Proof.Machine

/-! ## Records and their bytes (R175): what a table's reader takes apart, the layout of its chapter puts together again -/

/-- n bytes of a record from byte i. -/
def bytesFrom (b : List Byte) (i n : Nat) : List Byte := (List.range n).map fun k => byteAt b (i + k)

/-- A record is its own bytes from the first. -/
theorem bytesFrom_self {b : List Byte} {n : Nat} (h : b.length = n) : bytesFrom b 0 n = b := by
  refine List.ext_getElem (by simp [bytesFrom, h]) fun k _ hk => ?_
  simp [bytesFrom, byteAt, hk]

@[simp] theorem bytesFrom_append {b : List Byte} {i j n m : Nat} (next : i + n = j) :
    bytesFrom b i n ++ bytesFrom b j m = bytesFrom b i (n + m) := by
  subst next
  simp [bytesFrom, List.range_add, Nat.add_assoc, Function.comp_def]

section fields

variable {b : List Byte} {i n : Nat}

/-- The unsigned fields are not negative: a record that holds one as a natural number keeps its value. -/
@[simp] theorem max_u8 : max (u8 b i) 0 = u8 b i := max_eq_left (Int.natCast_nonneg _)

@[simp] theorem max_u16 : max (u16 b i) 0 = u16 b i := max_eq_left (Int.natCast_nonneg _)

@[simp] theorem max_u32 : max (u32 b i) 0 = u32 b i := max_eq_left (Int.natCast_nonneg _)

theorem put8_toNat (x : Byte) : put8 x.toNat = [x] := by simp [put8]

@[simp] theorem put8_u8 : put8 (u8 b i) = bytesFrom b i 1 := put8_toNat _

@[simp] theorem put16_u16 : put16 (u16 b i) = bytesFrom b i 2 := put16_append _ _

@[simp] theorem put16_s16 : put16 (s16 b i) = bytesFrom b i 2 := (put16_toInt _).trans (put16_append _ _)

theorem put32_append (x y z w : Byte) : put32 (x ++ y ++ z ++ w : BitVec 32).toNat = [x, y, z, w] := by
  have word : BitVec.ofInt 32 (x ++ y ++ z ++ w : BitVec 32).toNat = x ++ y ++ z ++ w := by simp
  have first : (x ++ y ++ z ++ w).extractLsb' 24 8 = x :=
    (BitVec.extractLsb'_append_eq_of_le (by decide)).trans
      ((BitVec.extractLsb'_append_eq_of_le (by decide)).trans BitVec.extractLsb'_append_eq_left)
  have second : (x ++ y ++ z ++ w).extractLsb' 16 8 = y :=
    (BitVec.extractLsb'_append_eq_of_le (by decide)).trans
      ((BitVec.extractLsb'_append_eq_of_le (by decide)).trans BitVec.extractLsb'_append_eq_right)
  have third : (x ++ y ++ z ++ w).extractLsb' 8 8 = z :=
    (BitVec.extractLsb'_append_eq_of_le (by decide)).trans BitVec.extractLsb'_append_eq_right
  have last : (x ++ y ++ z ++ w).extractLsb' 0 8 = w := BitVec.extractLsb'_append_eq_right
  simp only [put32, word, first, second, third, last]

@[simp] theorem put32_u32 : put32 (u32 b i) = bytesFrom b i 4 := put32_append _ _ _ _

@[simp] theorem put32_s32 : put32 (s32 b i) = bytesFrom b i 4 := (put32_toInt _).trans (put32_append _ _ _ _)

/-- An index within its range keeps its number. -/
theorem index?_val {x : Int} {k : Fin n} (h : index? n x = some k) : (k.val : Int) = x := by
  unfold index? at h
  split at h
  · next bounds =>
    obtain rfl := Option.some.inj h
    exact Int.toNat_of_nonneg bounds.1
  · cases h

theorem put8_readIndex {k : Fin n} (h : readIndex n b i = some k) : put8 k.val = bytesFrom b i 1 := by
  rw [index?_val h, put8_u8]

theorem putOptIndex_read {x : Option (Fin n)} (h : readOptIndex n b i = some x) : putOptIndex x = bytesFrom b i 1 := by
  unfold readOptIndex at h
  split at h
  · next none =>
    obtain rfl := Option.some.inj h
    rw [← put8_u8, none]
    rfl
  · obtain ⟨k, hk, rfl⟩ := Option.map_eq_some_iff.mp h
    exact put8_readIndex hk

theorem put8_readFlag {x : Bool} (h : readFlag b i = some x) : put8 (bit x) = bytesFrom b i 1 := by
  rw [← put8_u8]
  unfold readFlag at h
  split at h
  · next zero => obtain rfl := Option.some.inj h; rw [zero]; rfl
  · split at h
    · next one => obtain rfl := Option.some.inj h; rw [one]; rfl
    · cases h

/-- Both bytes of a position. -/
theorem Position.bytes_read {p : Position} (h : Position.read b i = some p) : p.bytes = bytesFrom b i 2 := by
  unfold Position.read at h
  split at h
  · next f t hf ht =>
    obtain rfl := Option.some.inj h
    rw [Position.bytes, put8_readIndex hf, put8_readIndex ht]
    exact bytesFrom_append rfl
  · cases h

/-- The low bits of a number as a flag byte. -/
theorem flagByte_testBit (m : Nat) : flagByte ((List.range n).map m.testBit) = (m % 2 ^ n : Nat) := by
  induction n generalizing m with
  | zero => simp [flagByte, Nat.mod_one]
  | succ n ih =>
    have low : bit (m.testBit 0) = (m % 2 : Nat) := by
      rcases Nat.mod_two_eq_zero_or_one m with h | h <;> simp [bit, h]
    have rest : ((List.range n).map fun k => m.testBit (k + 1)) = (List.range n).map (m / 2).testBit := by
      simp [Nat.testBit_succ]
    rw [List.range_succ_eq_map, List.map_cons, List.map_map, flagByte, low]
    show _ + 2 * flagByte ((List.range n).map fun k => m.testBit (k + 1)) = _
    rw [rest, ih, Nat.pow_succ', Nat.mod_mul]
    push_cast
    rfl

/-- A byte with no bit set but its n low ones is the flag byte of these. -/
theorem put8_flagByte {x : Byte} (n : Nat) (h : x.toNat < 2 ^ n) : put8 (flagByte ((List.range n).map x.getLsbD)) = [x] := by
  have bits : flagByte ((List.range n).map x.getLsbD) = x.toNat := by
    rw [← Nat.mod_eq_of_lt h]
    exact flagByte_testBit x.toNat
  rw [bits, put8_toNat]

theorem put8_twoFlags (h : u8 b i ≤ 3) : put8 (flagByte [(byteAt b i)[0], (byteAt b i)[1]]) = bytesFrom b i 1 :=
  put8_flagByte 2 (by unfold u8 at h; omega)

theorem put8_threeFlags (h : u8 b i ≤ 7) :
    put8 (flagByte [(byteAt b i)[0], (byteAt b i)[1], (byteAt b i)[2]]) = bytesFrom b i 1 :=
  put8_flagByte 3 (by unfold u8 at h; omega)

theorem put8_fourFlags (h : u8 b i ≤ 15) : 
    put8 (flagByte [(byteAt b i)[0], (byteAt b i)[1], (byteAt b i)[2], (byteAt b i)[3]]) = bytesFrom b i 1 :=
  put8_flagByte 4 (by unfold u8 at h; omega)

end fields

/-! ## Codes -/

section codes

variable {n idx : Int}

theorem Kind.code_ofCode {k : Kind} (h : Kind.ofCode n = some k) : k.code = n := by
  unfold Kind.ofCode at h
  repeat' split at h
  all_goals cases h <;> (symm; assumption)

theorem Role.code_ofCode {k : Role} (h : Role.ofCode n = some k) : k.code = n := by
  unfold Role.ofCode at h
  repeat' split at h
  all_goals cases h <;> (symm; assumption)

theorem Resolution.code_ofCode {k : Resolution} (h : Resolution.ofCode n = some k) : k.code = n := by
  unfold Resolution.ofCode at h
  repeat' split at h
  all_goals cases h <;> (symm; assumption)

theorem Trigger.code_ofCode {k : Trigger} (h : Trigger.ofCode n = some k) : k.code = n := by
  unfold Trigger.ofCode at h
  repeat' split at h
  all_goals cases h <;> (symm; assumption)

/-- A source of either kind, by its code and its index. -/
theorem Source.code_ofCode {x : Source} (h : Source.ofCode n idx = some x) : x.code = n ∧ x.index = idx := by
  unfold Source.ofCode at h
  repeat' split at h
  case isTrue | isFalse.isTrue | isFalse.isFalse.isFalse.isFalse.isFalse.isTrue =>
    obtain ⟨k, hk, rfl⟩ := Option.map_eq_some_iff.mp h
    exact ⟨Eq.symm ‹_›, index?_val hk⟩
  all_goals cases h <;> exact ⟨Eq.symm ‹_›, Eq.symm ‹_›⟩

theorem CaptureSource.bytes_ofCode {x : CaptureSource} (h : CaptureSource.ofCode n idx = some x) :
    x.bytes = put8 n ++ put8 idx := by
  unfold CaptureSource.ofCode at h
  repeat' split at h
  case isTrue | isFalse.isTrue | isFalse.isFalse.isTrue =>
    obtain ⟨k, hk, rfl⟩ := Option.map_eq_some_iff.mp h
    rw [CaptureSource.bytes, index?_val hk, ‹n = _›]
  all_goals cases h <;> rw [‹n = _›, ‹idx = _›] <;> rfl

end codes

section records

variable {b : List Byte}

theorem ChannelRecord.bytes_read {r : ChannelRecord} (len : b.length = 19) (h : ChannelRecord.read b = some r) :
    r.bytes = b := by
  simp only [ChannelRecord.read, Option.bind_eq_bind, Option.bind_eq_some_iff, Option.ite_none_right_eq_some,
    Option.some.injEq] at h
  obtain ⟨pos, hpos, kind, hkind, ⟨flags, -⟩, rfl⟩ := h
  unfold ChannelRecord.bytes
  simpa [put8_twoFlags flags, Position.bytes_read hpos, Kind.code_ofCode hkind] using bytesFrom_self len

theorem OutputRecord.bytes_read {r : OutputRecord} (len : b.length = 9) (h : OutputRecord.read b = some r) :
    r.bytes = b := by
  simp only [OutputRecord.read, Option.bind_eq_bind, Option.bind_eq_some_iff, Option.ite_none_right_eq_some,
    Option.some.injEq] at h
  obtain ⟨inUse, hinUse, pos, hpos, source, hsource, -, rfl⟩ := h
  unfold OutputRecord.bytes
  simpa [put8_readFlag hinUse, Position.bytes_read hpos, Source.code_ofCode hsource] using bytesFrom_self len

theorem WellRecord.bytes_read {r : WellRecord} (len : b.length = 29) (h : WellRecord.read b = some r) :
    r.bytes = b := by
  simp only [WellRecord.read, Option.bind_eq_bind, Option.bind_eq_some_iff, Option.ite_none_right_eq_some,
    Option.some.injEq] at h
  obtain ⟨role, hrole, flow, hflow, intake, hintake, motor, hmotor, point, hpoint, -, rfl⟩ := h
  unfold WellRecord.bytes
  simpa [Role.code_ofCode hrole, put8_readIndex hflow, put8_readIndex hintake, putOptIndex_read hmotor,
    putOptIndex_read hpoint] using bytesFrom_self len

theorem PlantRecord.bytes_read {r : PlantRecord} (len : b.length = 15) (h : PlantRecord.read b = some r) :
    r.bytes = b := by
  simp only [PlantRecord.read, Option.bind_eq_bind, Option.bind_eq_some_iff, Option.ite_none_right_eq_some,
    Option.some.injEq] at h
  obtain ⟨check, hcheck, brine, hbrine, steam, hsteam, -, rfl⟩ := h
  unfold PlantRecord.bytes
  simpa [put8_readFlag hcheck, putOptIndex_read hbrine, putOptIndex_read hsteam] using bytesFrom_self len

theorem TurbineRecord.bytes_read {r : TurbineRecord} (len : b.length = 41) (h : TurbineRecord.read b = some r) :
    r.bytes = b := by
  simp only [TurbineRecord.read, Option.bind_eq_bind, Option.bind_eq_some_iff, Option.ite_none_right_eq_some,
    Option.some.injEq] at h
  obtain ⟨speed, hspeed, lube, hlube, gear, hgear, purity, hpurity, field, hfield, -, rfl⟩ := h
  unfold TurbineRecord.bytes
  simpa [put8_readIndex hspeed, put8_readIndex hlube, put8_readIndex hgear, put8_readIndex hpurity,
    putOptIndex_read hfield] using bytesFrom_self len

theorem HeatingRecord.bytes_read {r : HeatingRecord} (len : b.length = 36) (h : HeatingRecord.read b = some r) :
    r.bytes = b := by
  simp only [HeatingRecord.read, Option.bind_eq_bind, Option.bind_eq_some_iff, Option.ite_none_right_eq_some,
    Option.some.injEq] at h
  obtain ⟨enable, henable, outdoor, houtdoor, ret, hret, supply, hsupply, flow, hflow, inlet, hinlet, outlet, houtlet,
    brine, hbrine, point, hpoint, -, rfl⟩ := h
  unfold HeatingRecord.bytes
  simpa [put8_readFlag henable, put8_readIndex houtdoor, put8_readIndex hret, put8_readIndex hsupply,
    put8_readIndex hflow, put8_readIndex hinlet, put8_readIndex houtlet, put8_readIndex hbrine, putOptIndex_read hpoint]
    using bytesFrom_self len

theorem PointRecord.bytes_read {r : PointRecord} (len : b.length = 15) (h : PointRecord.read b = some r) :
    r.bytes = b := by
  simp only [PointRecord.read, Option.bind_eq_bind, Option.bind_eq_some_iff, Option.ite_none_right_eq_some,
    Option.some.injEq] at h
  obtain ⟨temp, htemp, silica, hsilica, curve, hcurve, ⟨flags, -⟩, rfl⟩ := h
  unfold PointRecord.bytes
  simpa [put8_threeFlags flags, put8_readIndex htemp, putOptIndex_read hsilica, put8_readIndex hcurve] using bytesFrom_self len

theorem LoopRecord.bytes_read {r : LoopRecord} (len : b.length = 6) (h : LoopRecord.read b = some r) :
    r.bytes = b := by
  simp only [LoopRecord.read, Option.bind_eq_bind, Option.bind_eq_some_iff, Option.ite_none_right_eq_some,
    Option.some.injEq] at h
  obtain ⟨rate, hrate, auto, hauto, -, rfl⟩ := h
  unfold LoopRecord.bytes
  simpa [put8_readIndex hrate, put8_readFlag hauto] using bytesFrom_self len

theorem TimingRecord.bytes_read {r : TimingRecord} (len : b.length = 9) (h : TimingRecord.read b = some r) :
    r.bytes = b := by
  simp only [TimingRecord.read, Option.bind_eq_bind, Option.bind_eq_some_iff, Option.ite_none_right_eq_some,
    Option.some.injEq] at h
  obtain ⟨resolution, hresolution, -, rfl⟩ := h
  unfold TimingRecord.bytes
  simpa [Resolution.code_ofCode hresolution] using bytesFrom_self len

theorem Permit.bytes_read {r : Permit} (len : b.length = 1) (h : Permit.read b = some r) : put8 (flagByte r.flags) = b := by
  simp only [Permit.read, Option.ite_none_right_eq_some, Option.some.injEq] at h
  obtain ⟨flags, rfl⟩ := h
  exact (put8_fourFlags flags).trans (bytesFrom_self len)

theorem readHold_byte {x : Bool} (len : b.length = 1) (h : readHold b = some x) : put8 (bit x) = b :=
  (put8_readFlag h).trans (bytesFrom_self len)

/-- n words from byte i, which a bank holds as a vector. -/
theorem flatMap_put16_ofFn (b : List Byte) (i n : Nat) :
    (Vector.ofFn fun k : Fin n => u16 b (i + 2 * k.val)).toList.flatMap put16 = bytesFrom b i (2 * n) := by
  induction n with
  | zero => simp [bytesFrom]
  | succ n ih =>
    rw [Vector.ofFn_succ, Vector.toList_push, List.flatMap_append]
    refine (congrArg (· ++ _) ih).trans ?_
    simp [Nat.mul_succ]

theorem readFailsafe_bytes {k : Bank} (len : b.length = 54) (h : readFailsafe b = some k) : k.bytes = b := by
  simp only [readFailsafe, Option.ite_none_right_eq_some, Option.some.injEq] at h
  obtain ⟨-, rfl⟩ := h
  unfold Bank.bytes Bank.readAt
  dsimp only
  rw [flatMap_put16_ofFn, flatMap_put16_ofFn]
  simpa using bytesFrom_self len

/-- The points of a curve, with their second numbers read as they were written. -/
theorem flatMap_readPoints {y : List Byte → Nat → Int} (hy : ∀ k, put16 (y b k) = bytesFrom b k 2) (n i : Nat) :
    (readPoints y b i n).flatMap (fun p => put16 p.x ++ put16 p.y) = bytesFrom b i (4 * n) := by
  induction n generalizing i with
  | zero => rfl
  | succ n ih =>
    rw [readPoints, List.flatMap_cons, ih, put16_s16, hy, bytesFrom_append rfl, bytesFrom_append rfl]
    congr 1
    omega

theorem length_readPoints (y : List Byte → Nat → Int) (n i : Nat) : (readPoints y b i n).length = n := by
  induction n generalizing i with
  | zero => rfl
  | succ n ih => rw [readPoints, List.length_cons, ih]

/-- A curve of the length that its count byte gives. -/
theorem curveBytes_readPoints {y : List Byte → Nat → Int} (hy : ∀ k, put16 (y b k) = bytesFrom b k 2)
    (len : curveLength b = true) : curveBytes (readPoints y b 1 (u8 b 0).toNat) = b := by
  have whole : b.length = 1 + 4 * (u8 b 0).toNat := (of_decide_eq_true len).2
  rw [curveBytes, length_readPoints, flatMap_readPoints hy]
  simpa using bytesFrom_self whole

theorem curveBytes_readSolubilityCurve {ps : List CurvePoint} (len : curveLength b = true)
    (h : readSolubilityCurve b = some ps) : curveBytes ps = b := by
  simp only [readSolubilityCurve, Option.ite_none_right_eq_some, Option.some.injEq] at h
  obtain ⟨-, rfl⟩ := h
  exact curveBytes_readPoints (fun _ => put16_u16) len

theorem curveBytes_readHeatCurve {ps : List CurvePoint} (len : curveLength b = true) (h : readHeatCurve b = some ps) :
    curveBytes ps = b := by
  simp only [readHeatCurve, Option.ite_none_right_eq_some, Option.some.injEq] at h
  obtain ⟨-, rfl⟩ := h
  exact curveBytes_readPoints (fun _ => put16_s16) len

/-- The capture sources read are as many as asked for, and keep their bytes. -/
theorem flatMap_readSources {n i : Nat} {cs : List CaptureSource} (h : readSources b i n = some cs) :
    cs.length = n ∧ cs.flatMap CaptureSource.bytes = bytesFrom b i (2 * n) := by
  induction n generalizing i cs with
  | zero => cases h; exact ⟨rfl, rfl⟩
  | succ n ih =>
    unfold readSources at h
    split at h
    · next c rest hc hrest =>
      obtain rfl := Option.some.inj h
      obtain ⟨length, bytes⟩ := ih hrest
      refine ⟨congrArg (· + 1) length, ?_⟩
      rw [List.flatMap_cons, CaptureSource.bytes_ofCode hc, bytes, put8_u8, put8_u8, bytesFrom_append rfl, bytesFrom_append rfl]
      congr 1
      omega
    · cases h

theorem CaptureRecord.bytes_read {r : CaptureRecord} (len : b.length = 4 + 2 * (u8 b 0).toNat)
    (h : CaptureRecord.read b = some r) : r.bytes = b := by
  simp only [CaptureRecord.read, Option.bind_eq_bind, Option.bind_eq_some_iff, Option.ite_none_right_eq_some,
    Option.some.injEq] at h
  obtain ⟨sources, hsources, trigger, htrigger, -, rfl⟩ := h
  obtain ⟨length, bytes⟩ := flatMap_readSources hsources
  unfold CaptureRecord.bytes
  simpa [length, bytes, Trigger.code_ofCode htrigger] using bytesFrom_self len

end records

end Sys2Proof.Machine

namespace Sys2Proof.Machine

/-! ## TABLE_WRITE and TABLE_READ (R175) -/

/-- The id of a table (Table 11-5). -/
def TableRef.table : TableRef → Nat
  | .channel _ => 0
  | .output _ => 1
  | .well _ => 2
  | .curve _ => 3
  | .point _ => 4
  | .heatCurve => 5
  | .heating => 6
  | .turbine => 7
  | .plant => 8
  | .loop => 9
  | .permit _ => 10
  | .hold _ => 11
  | .cls _ => 12
  | .failsafe => 13
  | .timing => 14
  | .capture => 15

/-- A request finds a table by its id. -/
theorem TableRef.table_find {t i : Nat} {ref : TableRef} (h : TableRef.find t i = some ref) : ref.table = t := by
  unfold TableRef.find at h
  split at h
  case h_17 => cases h
  case h_6 | h_7 | h_8 | h_9 | h_10 | h_14 | h_15 | h_16 =>
    split at h
    · obtain rfl := Option.some.inj h; rfl
    · cases h
  all_goals obtain ⟨k, -, rfl⟩ := Option.map_eq_some_iff.mp h; rfl

/-- The index of a CLASS request is the class. -/
theorem TableRef.find_cls {t i : Nat} {k : Fin 9} (h : TableRef.find t i = some (.cls k)) : k.val = i := by
  obtain rfl : 12 = t := TableRef.table_find h
  obtain ⟨j, hj, same⟩ := Option.map_eq_some_iff.mp h
  obtain rfl := TableRef.cls.inj same
  exact Int.ofNat.inj (index?_val hj)

/-- A record that is stored has been read from its bytes. -/
theorem storeIf_ok {α : Type} {r : Option α} {put : α → State} {s u : State} (h : storeIf r put s = (.ok, u)) :
    ∃ a, r = some a ∧ u = put a := by
  unfold storeIf at h
  split at h
  · cases h
  · next a => exact ⟨a, rfl, (Prod.mk.inj h).2.symm⟩

/-- A write that is taken names a table, has the length of its records, and passes the table's own checks. -/
theorem writeTable_ok {t i : Nat} {b : List Byte} {s u : State} (h : writeTable t i b s = (.ok, u)) :
    ∃ ref, TableRef.find t i = some ref ∧ wrongLength t b = false ∧ ref.store b s = (.ok, u) := by
  unfold writeTable at h
  split at h
  · cases h
  · next ref found =>
    split at h
    · cases h
    · split at h
      · cases h
      · next length => exact ⟨ref, found, Bool.eq_false_iff.mpr length, h⟩

section load

variable {b : List Byte} {s u : State}

/-- A record of fixed size has the size of its table (Table 11-5). -/
theorem length_of_wrongLength {t n : Nat} (size : fixedLength t = some n) (h : wrongLength t b = false) : b.length = n := by
  unfold wrongLength at h
  rw [size] at h
  exact of_decide_eq_true (by simpa using h)

/-- The enables of a CLASS record with the summary flag in bit 2 (R157). -/
theorem put8_classFlags {x : Byte} {summary : Bool} (low : x.toNat ≤ 3) :
    put8 (flagByte [x.getLsbD 0, x.getLsbD 1, summary]) = [if summary then x ||| 0x04#8 else x] := by
  have below : x.toNat < 2 ^ 3 := by omega
  cases summary with
  | false =>
    have clear : x.getLsbD 2 = false := Nat.testBit_lt_two_pow (by omega)
    have bits : [x.getLsbD 0, x.getLsbD 1, false] = (List.range 3).map x.getLsbD := by
      rw [← clear]
      rfl
    rw [bits]
    exact put8_flagByte 3 below
  | true =>
    have marked : (x ||| 0x04#8).toNat < 2 ^ 3 := by
      rw [BitVec.toNat_or]
      exact Nat.or_lt_two_pow below (by decide)
    have bits : [x.getLsbD 0, x.getLsbD 1, true] = (List.range 3).map (x ||| 0x04#8).getLsbD := by
      simp [List.range_succ]
    rw [bits]
    exact put8_flagByte 3 marked

/-- CLASS gives the two enables back, with the summary flag in bit 2 (R157). -/
theorem load_cls_of_store {k : Fin 9} (len : b.length = 1) (h : (TableRef.cls k).store b s = (.ok, u)) :
    (TableRef.cls k).load u = b.map fun x => if s.evq.classes[k].summary then x ||| 0x04#8 else x := by
  obtain ⟨x, rfl⟩ := List.length_eq_one_iff.mp len
  obtain ⟨e, read, rfl⟩ := storeIf_ok h
  obtain ⟨low, same⟩ := Option.ite_none_right_eq_some.mp read
  obtain rfl := Option.some.inj same
  refine (congrArg (fun c : ClassEntry => put8 (flagByte [c.log, c.attend, c.summary])) (Vector.getElem_set_self _)).trans ?_
  exact put8_classFlags (Int.ofNat_le.mp low)

theorem load_curve_of_store {i : CurveNo} (h : (TableRef.curve i).store b s = (.ok, u)) : (TableRef.curve i).load u = b := by
  change storeCurve i b s = _ at h
  unfold storeCurve at h
  split at h
  · cases h
  · next length =>
    obtain ⟨ps, read, rfl⟩ := storeIf_ok h
    exact (congrArg curveBytes (Vector.getElem_set_self _)).trans (curveBytes_readSolubilityCurve (by simpa using length) read)

theorem load_heatCurve_of_store (h : TableRef.heatCurve.store b s = (.ok, u)) : TableRef.heatCurve.load u = b := by
  change storeHeatCurve b s = _ at h
  unfold storeHeatCurve at h
  split at h
  · cases h
  · next length =>
    obtain ⟨ps, read, rfl⟩ := storeIf_ok h
    exact curveBytes_readHeatCurve (by simpa using length) read

theorem load_capture_of_store (h : TableRef.capture.store b s = (.ok, u)) : TableRef.capture.load u = b := by
  change storeCapture b s = _ at h
  unfold storeCapture at h
  split at h
  · cases h
  · next length =>
    split at h
    · cases h
    · obtain ⟨r, read, rfl⟩ := storeIf_ok h
      exact CaptureRecord.bytes_read (not_not.mp (not_or.mp length).2) read

/-- A record stored is the record that a read returns, in every table but CLASS. -/
theorem load_of_store {ref : TableRef} (other : ref.table ≠ 12) (len : wrongLength ref.table b = false)
    (h : ref.store b s = (.ok, u)) : ref.load u = b := by
  have size {n : Nat} (fixed : fixedLength ref.table = some n) : b.length = n := length_of_wrongLength fixed len
  cases ref with
  | channel i =>
    obtain ⟨r, read, rfl⟩ := storeIf_ok h
    exact (congrArg (fun c : Channel => c.cfg.bytes) (Vector.getElem_set_self _)).trans
      (ChannelRecord.bytes_read (size rfl) read)
  | output i =>
    obtain ⟨r, read, rfl⟩ := storeIf_ok h
    exact (congrArg (fun o : Output => o.cfg.bytes) (Vector.getElem_set_self _)).trans
      (OutputRecord.bytes_read (size rfl) read)
  | well i =>
    obtain ⟨r, read, rfl⟩ := storeIf_ok h
    exact (congrArg (fun w : Well => w.cfg.bytes) (setWell_well s i _)).trans
      (WellRecord.bytes_read (size rfl) read)
  | curve i => exact load_curve_of_store h
  | point i =>
    obtain ⟨r, read, rfl⟩ := storeIf_ok h
    exact (congrArg (fun p : Point => p.cfg.bytes) (Vector.getElem_set_self _)).trans
      (PointRecord.bytes_read (size rfl) read)
  | heatCurve => exact load_heatCurve_of_store h
  | heating =>
    obtain ⟨r, read, rfl⟩ := storeIf_ok h
    exact HeatingRecord.bytes_read (size rfl) read
  | turbine =>
    obtain ⟨r, read, rfl⟩ := storeIf_ok h
    exact TurbineRecord.bytes_read (size rfl) read
  | plant =>
    obtain ⟨r, read, rfl⟩ := storeIf_ok h
    exact PlantRecord.bytes_read (size rfl) read
  | loop =>
    obtain ⟨r, read, rfl⟩ := storeIf_ok h
    exact LoopRecord.bytes_read (size rfl) read
  | permit i =>
    obtain ⟨r, read, rfl⟩ := storeIf_ok h
    exact (congrArg (fun w : Well => put8 (flagByte w.permit.flags)) (setWell_well s i _)).trans
      (Permit.bytes_read (size rfl) read)
  | hold i =>
    obtain ⟨r, read, rfl⟩ := storeIf_ok h
    exact (congrArg (fun w : Well => put8 (bit w.hold)) (setWell_well s i _)).trans
      (readHold_byte (size rfl) read)
  | cls k => exact absurd rfl other
  | failsafe =>
    obtain ⟨r, read, rfl⟩ := storeIf_ok h
    exact readFailsafe_bytes (size rfl) read
  | timing =>
    obtain ⟨r, read, rfl⟩ := storeIf_ok h
    exact TimingRecord.bytes_read (size rfl) read
  | capture => exact load_capture_of_store h

end load

/-- Settles O51: every record's bytes are those it was read from, and the table and index of the request find it again. -/
theorem recordsReadBack : Obligations.RecordsReadBack := by
  intro t i b s u h
  obtain ⟨ref, found, len, stored⟩ := writeTable_ok h
  obtain rfl := TableRef.table_find found
  refine ⟨ref, found, fun other => load_of_store other len stored, fun cls => ?_⟩
  cases ref with
  | cls k => exact ⟨k, TableRef.find_cls found, load_cls_of_store (length_of_wrongLength rfl len) stored⟩
  | _ => cases cls

end Sys2Proof.Machine

/-! PROOFS. The capture ring: the words that a record writes, CAP at a snapshot, CAPTURE_CMD, and the canonical form of the ring
through every step (R163 to R168). -/

namespace Sys2Proof.Machine

/-! ## The words of a record (R164, R168) -/

/-- Counting on around the ring from the offset after this one. -/
theorem ring_succ_add (a k : Nat) : ((a + 1) % 4096 + k) % 4096 = (a + (k + 1)) % 4096 := by omega

/-- A record changes no word that it does not stand on. -/
theorem Memory.read_writeRecord_of_ne (a : Nat) : ∀ (ws : List Word) {m : Memory} {pos : Nat}, m.wf = true → pos < 4096 →
    (∀ k, k < ws.length → (pos + k) % 4096 ≠ a) → (m.writeRecord pos ws).read a = m.read a
  | [], _, _, _, _, _ => rfl
  | w :: ws, m, pos, canonical, inside, away => by
    have first : pos ≠ a := by simpa [Nat.mod_eq_of_lt inside] using away 0 (Nat.zero_lt_succ _)
    have rest : ∀ k, k < ws.length → ((pos + 1) % 4096 + k) % 4096 ≠ a := fun k hk =>
      ring_succ_add pos k ▸ away (k + 1) (Nat.succ_lt_succ hk)
    calc (m.writeRecord pos (w :: ws)).read a
        = (m.write pos w).read a :=
          read_writeRecord_of_ne a ws (write_wf pos w canonical) (Nat.mod_lt _ (by decide)) rest
      _ = m.read a := (read_write canonical pos a w).trans (if_neg first)

/-- A record no longer than the ring reads back: its later words do not come around to its first. -/
theorem Memory.readRecord_writeRecord : ∀ (ws : List Word) {m : Memory} {pos : Nat}, m.wf = true → pos < 4096 →
    ws.length ≤ 4096 → (m.writeRecord pos ws).readRecord pos ws.length = ws
  | [], _, _, _, _, _ => rfl
  | w :: ws, m, pos, canonical, inside, fits => by
    rw [List.length_cons] at fits
    have written : (m.write pos w).wf = true := write_wf pos w canonical
    have onward : (pos + 1) % 4096 < 4096 := Nat.mod_lt _ (by decide)
    have clear : ∀ k, k < ws.length → ((pos + 1) % 4096 + k) % 4096 ≠ pos := by omega
    have first : (m.writeRecord pos (w :: ws)).read pos = w :=
      calc (m.writeRecord pos (w :: ws)).read pos
          = (m.write pos w).read pos := read_writeRecord_of_ne pos ws written onward clear
        _ = w := (read_write canonical pos pos w).trans (if_pos rfl)
    exact congrArg₂ List.cons first (readRecord_writeRecord ws written onward (Nat.le_of_succ_le fits))

/-- Settles O49: a record reads back word by word, and every other word is as before. -/
theorem ringReadsBack : Obligations.RingReadsBack := fun _ _ ws canonical inside fits =>
  ⟨Memory.readRecord_writeRecord ws canonical inside fits, fun a _ => Memory.read_writeRecord_of_ne a ws canonical inside⟩

/-! ## A record written and counted (R164 to R166) -/

theorem CaptureSource.value_eq (v : View) (x : CaptureSource) : x.value v = match x with
    | .channel n => v.chans[n].value
    | .si p => v.points[p].si
    | .floor p => v.points[p].tFloor
    | .pceil => v.ceiling
    | .heatdem => v.heat.valve := by
  cases x <;> rfl

/-- The notice of a record of n words: WRAP before HALF, with the write position after the record (R165). -/
theorem raiseAll_ringNotice (pos n : Nat) (s : State) : raiseAll (ringNotice pos n) s =
    if 4096 ≤ pos + n then raise .captWrap 0 ((pos + n) % 4096 : Nat) s
    else if pos < 2048 ∧ 2048 ≤ pos + n then raise .captHalf 0 ((pos + n) % 4096 : Nat) s
    else s := by
  unfold ringNotice
  split_ifs with wraps half
  · rfl
  · rw [Nat.mod_eq_of_lt (not_le.mp wraps)]
    rfl
  · rfl

/-- The ring with a record of the view in it (R164). -/
def Capture.append (c : Capture) (v : View) : Capture :=
  { c with
    dec := 0, ring := c.ring.writeRecord c.pos (c.record v), pos := (c.pos + (c.record v).length) % 4096 }

/-- The part with a record written and its notice raised, before the record is counted; `writeCapture_eq` ties it to the
model. -/
def State.recorded (s : State) : State :=
  raiseAll (ringNotice s.cap.pos (s.cap.record s.view).length) { s with cap := s.cap.append s.view }

theorem writeCapture_eq (s : State) : writeCapture s = countPost s.recorded := rfl

theorem recorded_cap (s : State) : s.recorded.cap = s.cap.append s.view := raiseAll_cap _ _

section count

variable {s : State}

theorem countPost_untriggered (h : s.cap.state ≠ .triggered) : countPost s = s := if_pos h

theorem countPost_short (h : s.cap.state = .triggered) (short : s.cap.post + 1 < s.cap.cfg.postCount) : countPost s =
    { s with cap := { s.cap with post := s.cap.post + 1 } } :=
  (if_neg (not_not.mpr h)).trans (if_pos short)

theorem countPost_reached (h : s.cap.state = .triggered) (reached : s.cap.cfg.postCount ≤ s.cap.post + 1) : countPost s =
    raise .captFrozen 0 s.cap.pos { s with cap := { s.cap with post := s.cap.post + 1, state := .frozen } } :=
  (if_neg (not_not.mpr h)).trans (if_neg (not_lt.mpr reached))

theorem decimate_waits (h : s.cap.dec + 1 < s.cap.cfg.decimation) : decimate s =
    { s with cap := { s.cap with dec := s.cap.dec + 1 } } := if_pos h

theorem decimate_writes (h : s.cap.cfg.decimation ≤ s.cap.dec + 1) : decimate s = countPost s.recorded :=
  (if_neg (not_lt.mpr h)).trans (writeCapture_eq s)

end count

/-! ## The trigger test (R166) -/

/-- An alarm meets the trigger (Table 10-1). -/
def Trigger.onAlarm (t : Trigger) : Prop := t = .scaleAlarm ∨ t = .any

/-- A trip meets the trigger (Table 10-1). -/
def Trigger.onTrip (t : Trigger) : Prop := t = .turbineTrip ∨ t = .any

/-- The point's alarm mark changes from clear to set at this view (R166). -/
def Capture.freshAt (c : Capture) (v : View) (p : PointNo) : Prop :=
  (v.points[p].state = .alarm ∧ v.points[p].validity ≠ .invalid) ∧ c.alarmMarks[p] = false

section triggerTest

variable {c : Capture} {v : View}

theorem Capture.freshAt_iff (p : PointNo) : (v.points[p].alarmed && !c.alarmMarks[p]) = true ↔ c.freshAt v p := by
  rw [Bool.and_eq_true, Bool.not_eq_true', PointResult.alarmed, decide_eq_true_iff]
  rfl

theorem Capture.freshAlarm_some {p : PointNo} (fresh : c.freshAt v p) (lowest : ∀ q, q < p → ¬c.freshAt v q) :
    c.freshAlarm v = some p := by
  refine List.find?_eq_some_iff_getElem.mpr ⟨(freshAt_iff p).mpr fresh, p.val, by simp, by simp, fun j hj => ?_⟩
  rw [Bool.not_eq_true', ← Bool.not_eq_true, freshAt_iff]
  exact lowest _ (by simpa [Fin.lt_def] using hj)

theorem Capture.freshAlarm_none (h : ¬∃ p, c.freshAt v p) : c.freshAlarm v = none :=
  List.find?_eq_none.mpr fun p _ => (freshAt_iff p).not.mpr (not_exists.mp h p)

/-- An alarm is the subject, whether or not a trip meets the trigger too (log 32). -/
theorem Capture.triggered_alarm {p : PointNo} (on : c.cfg.trigger.onAlarm) (fresh : c.freshAt v p)
    (lowest : ∀ q, q < p → ¬c.freshAt v q) : c.triggered v = some (p.val : Int) := by
  rcases on with on | on <;> simp only [triggered, on, freshAlarm_some fresh lowest] <;> rfl

theorem Capture.triggered_trip (on : c.cfg.trigger.onTrip) (trip : v.tripCount ≠ c.lastTrips)
    (noAlarm : ¬(c.cfg.trigger.onAlarm ∧ ∃ p, c.freshAt v p)) : c.triggered v = some 0 := by
  have fresh : c.freshTrip v = true := decide_eq_true trip
  rcases on with on | on
  · simp only [triggered, on, fresh, if_true]
  · have unalarmed : c.freshAlarm v = none := freshAlarm_none fun h => noAlarm ⟨.inr on, h⟩
    simp only [triggered, on, fresh, unalarmed, if_true]
    rfl

theorem Capture.triggered_none (noAlarm : ¬(c.cfg.trigger.onAlarm ∧ ∃ p, c.freshAt v p))
    (noTrip : ¬(c.cfg.trigger.onTrip ∧ v.tripCount ≠ c.lastTrips)) : c.triggered v = none := by
  have alarm (on : c.cfg.trigger.onAlarm) : c.freshAlarm v = none := freshAlarm_none fun h => noAlarm ⟨on, h⟩
  have trip (on : c.cfg.trigger.onTrip) : c.freshTrip v = false := decide_eq_false fun h => noTrip ⟨on, h⟩
  cases h : c.cfg.trigger with
  | none => simp only [triggered, h]
  | scaleAlarm => simp only [triggered, h, alarm (.inl h), Option.map_none]
  | turbineTrip => simp only [triggered, h, trip (.inl h), Bool.false_eq_true, if_false]
  | any =>
    simp only [triggered, h, alarm (.inr h), trip (.inr h), Bool.false_eq_true, if_false]
    rfl

end triggerTest

/-! ## CAP at a snapshot -/

theorem Capture.update_eq (c : Capture) (v : View) : c.update v =
    { c with
      alarmMarks := Vector.ofFn fun p : PointNo => decide (v.points[p].state = .alarm ∧ v.points[p].validity ≠ .invalid)
      lastTrips := v.tripCount } := by
  have marks : v.points.map PointResult.alarmed =
      Vector.ofFn fun p : PointNo => decide (v.points[p].state = .alarm ∧ v.points[p].validity ≠ .invalid) :=
    Vector.ext fun i h => by simp [PointResult.alarmed]
  rw [update, marks]

/-- The snapshot taken off the list of jobs, and the marks updated from its view; the `capProcess` lemmas tie it to the model. -/
def State.marked (s : State) : State := { s with todo := { s.todo with cap := false }, cap := s.cap.update s.view }

/-- The ring triggered, with its event; `trigger_eq` ties it to the model (R166). -/
def State.triggeredBy (subject : Int) (s : State) : State :=
  raise .captTriggered subject s.view.number.toNat { s with cap := { s.cap with state := .triggered, post := 0 } }

theorem trigger_eq (subject : Int) (s : State) : trigger subject s =
    if s.cap.cfg.postCount = 0 then
      raise .captFrozen 0 s.cap.pos
        { s.triggeredBy subject with cap := { (s.triggeredBy subject).cap with state := .frozen } }
    else s.triggeredBy subject := rfl

section job

variable {s : State}

theorem capProcess_idle (h : s.todo.cap = false) : capProcess s = s := if_neg (by simp [h])

theorem capProcess_due (h : s.todo.cap = true) : capProcess s = match s.cap.state with
    | .stopped => s.marked
    | .frozen => s.marked
    | .triggered => decimate s.marked
    | .running => match s.cap.triggered s.view with
      | none => decimate s.marked
      | some subject =>
        let t := trigger subject s.marked
        if t.cap.state = .frozen then t else decimate t := if_pos h

theorem capProcess_resting (due : s.todo.cap = true) (rests : s.cap.state = .stopped ∨ s.cap.state = .frozen) :
    capProcess s = s.marked := by
  rw [capProcess_due due]
  rcases rests with h | h <;> rw [h]

theorem capProcess_triggered (due : s.todo.cap = true) (h : s.cap.state = .triggered) :
    capProcess s = decimate s.marked := by
  rw [capProcess_due due, h]

theorem capProcess_unmet (due : s.todo.cap = true) (h : s.cap.state = .running)
    (unmet : s.cap.triggered s.view = none) : capProcess s = decimate s.marked := by
  rw [capProcess_due due, h, unmet]

/-- The trigger is met: with a post count of 0 the ring freezes at once, otherwise the decimation step follows (log 17). -/
theorem capProcess_met {subject : Int} (due : s.todo.cap = true) (h : s.cap.state = .running)
    (met : s.cap.triggered s.view = some subject) : capProcess s =
    let t := s.marked.triggeredBy subject
    if s.cap.cfg.postCount = 0 then raise .captFrozen 0 s.cap.pos { t with cap := { t.cap with state := .frozen } }
    else decimate t := by
  rw [capProcess_due due, h, met]
  dsimp only
  rw [trigger_eq]
  by_cases zero : s.cap.cfg.postCount = 0
  · rw [if_pos zero, if_pos (show s.marked.cap.cfg.postCount = 0 from zero)]
    exact if_pos rfl
  · rw [if_neg zero, if_neg (show ¬s.marked.cap.cfg.postCount = 0 from zero)]
    exact if_neg nofun

end job

/-- Settles O48: the job by the state of the ring and the trigger test, and a record by the decimation and the post count. -/
theorem capSnapshotProcessed : Obligations.CapSnapshotProcessed := by
  refine ⟨fun s live => ?job, fun s => ?record⟩
  case job =>
    intro v alarmed marks s1 fresh trip hit onAlarm onTrip
    have marked : s.marked = s1 := by rw [State.marked, Capture.update_eq]
    have met {subject : Int} (due : s.todo.cap = true) (running : s.cap.state = .running)
        (test : s.cap.triggered v = some subject) : capProcess s = hit subject := by
      rw [capProcess_met due running test, marked]
      rfl
    rw [exec_capProcessSnapshot live]
    refine ⟨fun idle => congrArg _ (capProcess_idle idle), fun due rests => ?_, fun due triggered => ?_,
      fun p due running on isFresh lowest => ?_, fun due running on isTrip noAlarm => ?_,
      fun due running noAlarm noTrip => ?_⟩
    · rw [capProcess_resting due rests, marked]
    · rw [capProcess_triggered due triggered, marked]
    · rw [met due running (Capture.triggered_alarm on isFresh lowest)]
    · rw [met due running (Capture.triggered_trip on isTrip noAlarm)]
    · rw [capProcess_unmet due running (Capture.triggered_none noAlarm noTrip), marked]
  case record =>
    intro c value words stop pos t
    have hvalue : CaptureSource.value s.view = value := funext (CaptureSource.value_eq s.view)
    have hwords : c.record s.view = words := by
      rw [Capture.record, hvalue]
      rfl
    have appended : c.append s.view = { c with dec := 0, ring := c.ring.writeRecord c.pos words, pos := pos } := by
      rw [Capture.append, hwords]
    have recorded : s.recorded = t := by
      rw [State.recorded, raiseAll_ringNotice, appended, hwords]
    have cap : t.cap = { c with dec := 0, ring := c.ring.writeRecord c.pos words, pos := pos } := by
      rw [← recorded, recorded_cap, appended]
    clear_value t
    refine ⟨decimate_waits, fun writes untriggered => ?_, fun writes triggered short => ?_,
      fun writes triggered reached => ?_⟩
    all_goals rw [decimate_writes writes, recorded]
    · exact countPost_untriggered (by rwa [cap])
    · rw [countPost_short (by rwa [cap]) (by rwa [cap]), cap]
    · rw [countPost_reached (by rwa [cap]) (by rwa [cap]), cap]

/-! ## CAPTURE_CMD (R167) -/

theorem CaptureState.code_eq (x : CaptureState) :
    x.code = match x with | .stopped => 0 | .running => 1 | .triggered => 2 | .frozen => 3 := by
  cases x <;> rfl

/-- A refusal for the length or the command still carries the state and the write position (log 9). -/
theorem captureCmd_badLength {p : List Byte} (s : State) (h : p.length ≠ 1) :
    captureCmd p s = captureAnswer .badLength s := by
  unfold captureCmd
  split <;> [exact absurd rfl h; rfl]

theorem captureCmd_badValue {k : Byte} (s : State) (h : 2 < k.toNat) : captureCmd [k] s = captureAnswer .badValue s := by
  have not0 : k ≠ 0 := by bv_omega
  have not1 : k ≠ 1 := by bv_omega
  have not2 : k ≠ 2 := by bv_omega
  simp only [captureCmd, if_neg not0, if_neg not1, if_neg not2]

/-- START acts on a STOPPED ring alone, and leaves its words. -/
theorem captureCmd_start (s : State) : captureCmd [0x00#8] s =
    if s.cap.state = .stopped then captureAnswer .ok { s with cap := { s.cap with state := .running, pos := 0, dec := 0 } }
    else captureAnswer .wrongState s := by
  show captureStart s = _
  unfold captureStart
  cases s.cap.state <;> rfl

theorem captureCmd_stop (s : State) : captureCmd [0x01#8] s =
    if s.cap.state = .stopped then captureAnswer .already s
    else captureAnswer .ok { s with cap := { s.cap with state := .stopped } } := by
  show captureStop s = _
  unfold captureStop
  cases s.cap.state <;> rfl

/-- REARM acts on a FROZEN ring alone, and recording goes on where it stood. -/
theorem captureCmd_rearm (s : State) : captureCmd [0x02#8] s =
    if s.cap.state = .frozen then captureAnswer .ok { s with cap := { s.cap with state := .running, dec := 0 } }
    else captureAnswer .wrongState s := by
  show captureRearm s = _
  unfold captureRearm
  cases s.cap.state <;> rfl

/-- Settles O47: the length and the command are checked, and then the state of the ring decides. -/
theorem captureCommandTaken : Obligations.CaptureCommandTaken := by
  intro r s c ready hc reply
  have row : exec c s = live s (goodFrame 0x1C captureCmd r) := by rcases hc with rfl | rfl | rfl <;> rfl
  have answered {st : Status} {x : Capture}
      (h : captureCmd r.payload s.hears = captureAnswer st { s.hears with cap := x }) : exec c s = .next (reply st x) :=
    exec_replied ready row (h.trans (congrArg (fun n => answer st (put8 n ++ put16 x.pos) { s.hears with cap := x })
      (CaptureState.code_eq x.state)))
  have judged {p : Prop} [Decidable p] {st st' : Status} {x x' : Capture}
      (h : captureCmd r.payload s.hears = if p then captureAnswer st { s.hears with cap := x }
        else captureAnswer st' { s.hears with cap := x' }) :
      exec c s = .next (if p then reply st x else reply st' x') := by
    split_ifs at h ⊢
    · exact answered h
    · exact answered h
  refine ⟨fun h => answered (captureCmd_badLength _ h), fun k hp h => answered (hp ▸ captureCmd_badValue _ h),
    fun start => judged ?_, fun stop => judged ?_, fun rearm => judged ?_⟩
  · exact start ▸ captureCmd_start s.hears
  · exact stop ▸ captureCmd_stop s.hears
  · exact rearm ▸ captureCmd_rearm s.hears

/-! ## The ring through every step (R163, R164) -/

section ring

variable {s t : State}

/-- The invariant reads the words and the write position alone. -/
theorem RingInv.of_ring (h : RingInv s) (ring : t.cap.ring = s.cap.ring) (pos : t.cap.pos = s.cap.pos) : RingInv t := by
  unfold RingInv
  rwa [ring, pos]

theorem RingInv.of_cap (h : RingInv s) (cap : t.cap = s.cap) : RingInv t :=
  h.of_ring (congrArg Capture.ring cap) (congrArg Capture.pos cap)

/-- A record keeps the form of the ring and leaves the write position in it. -/
theorem recorded_ringInv (h : RingInv s) : RingInv s.recorded := by
  obtain ⟨canonical, inRing, inside⟩ := h
  unfold RingInv
  rw [recorded_cap]
  exact ⟨Memory.writeRecord_wf _ _ canonical, Memory.writeRecord_inRing _ inside inRing, Nat.mod_lt _ (by decide)⟩

theorem countPost_ringInv (h : RingInv s) : RingInv (countPost s) := by
  unfold countPost
  dsimp only
  split_ifs
  · exact h
  · exact h.of_ring rfl rfl
  · exact h.of_ring rfl rfl

theorem decimate_ringInv (h : RingInv s) : RingInv (decimate s) := by
  rcases lt_or_ge (s.cap.dec + 1) s.cap.cfg.decimation with waits | writes
  · rw [decimate_waits waits]
    exact h.of_ring rfl rfl
  · rw [decimate_writes writes]
    exact countPost_ringInv (recorded_ringInv h)

theorem trigger_ringInv (subject : Int) (h : RingInv s) : RingInv (trigger subject s) := by
  rw [trigger_eq]
  split_ifs
  · exact h.of_ring rfl rfl
  · exact h.of_ring rfl rfl

theorem capProcess_ringInv (h : RingInv s) : RingInv (capProcess s) := by
  cases due : s.todo.cap with
  | false => rwa [capProcess_idle due]
  | true =>
    have marked : RingInv s.marked := h.of_ring rfl rfl
    rw [capProcess_due due]
    split
    · exact marked
    · exact marked
    · exact decimate_ringInv marked
    · split
      · exact decimate_ringInv marked
      · dsimp only
        split_ifs
        · exact trigger_ringInv _ marked
        · exact decimate_ringInv (trigger_ringInv _ marked)

/-- CAPTURE_CMD writes no word, and START moves the write position to word 0. -/
theorem captureCmd_ringInv : HandlerKeeps RingInv captureCmd := by
  intro p s h
  have ⟨canonical, inRing, _⟩ := h
  have start : RingInv (captureStart s).2 := by
    unfold captureStart
    split
    · exact ⟨canonical, inRing, Nat.zero_lt_succ _⟩
    · exact h
  have stop : RingInv (captureStop s).2 := by
    unfold captureStop
    split
    · exact h
    · exact h.of_ring rfl rfl
  have rearm : RingInv (captureRearm s).2 := by
    unfold captureRearm
    split
    · exact h.of_ring rfl rfl
    · exact h
  unfold captureCmd
  split
  · split_ifs
    · exact start
    · exact stop
    · exact rearm
    · exact h
  · exact h

end ring

theorem keeps_ringInv : KeepsStores RingInv where
  reads h _ cap := h.of_cap cap
  heat h := h.of_cap ((hxuProcess_frame _).same .cap (by decide))
  capture := capProcess_ringInv
  clear p s h := h.of_cap ((clearEnergy_frame p s).same .cap (by decide))
  command := captureCmd_ringInv
  heating _ _ h := h.of_cap rfl
  record _ h := h.of_ring rfl rfl
  reset h := h.of_ring rfl rfl
  power _ _ := ⟨rfl, rfl, Nat.zero_lt_succ _⟩

/-- Settles O54: a record goes on from a position in the ring and wraps, START goes back to word 0, power-on brings an empty ring,
and nothing else reaches the words or the position. -/
theorem ringInvKept : Obligations.RingInvKept := fun _ _ h e => keeps_ringInv.step h e

end Sys2Proof.Machine

/-! PROOFS. The command port and its tables: power-on, IDENT, the CRC, the receiver byte by byte, the end of a reply, and what
TABLE_WRITE stores (R3, R22, R40, R66, R72 to R80, R99, R119, R120, R135, R136, R154, R157, R160, R163, R170 to R178). -/

namespace Sys2Proof.Machine

/-! ## The reset pin (R178) -/

/-- In reset nothing but the pin changes the part. -/
theorem exec_held {s : State} (held : s.held = true) {c : Instr} (low : c ≠ .resetPinLow) (high : ∀ b, c ≠ .powerOnReset b) :
    exec c s = .next s := by
  cases c with
  | resetPinLow => exact absurd rfl low
  | powerOnReset b => exact absurd rfl (high b)
  | _ => exact live_held _ held

section power

variable (b : BitVec 2)

@[simp] theorem powerOn_channel (i : ChannelNo) : (State.powerOn b).acq.chans[i] = .init .default :=
  Vector.getElem_replicate _

@[simp] theorem powerOn_output (i : OutputNo) : (State.powerOn b).out.outs[i] = .init .default :=
  Vector.getElem_replicate _

@[simp] theorem powerOn_well (i : WellNo) :
    (State.powerOn b).wsv.wells[i] = .init .default ⟨true, true, true, true⟩ false := Vector.getElem_replicate _

@[simp] theorem powerOn_curve (i : CurveNo) : (State.powerOn b).scm.curves[i] = [] := Vector.getElem_replicate _

@[simp] theorem powerOn_point (i : PointNo) : (State.powerOn b).scm.points[i] = .init .default := Vector.getElem_replicate _

@[simp] theorem powerOn_class (c : Fin 9) : (State.powerOn b).evq.classes[c] = ⟨true, true, false⟩ :=
  Vector.getElem_replicate _

end power

/-- Settles O4: the two rows of the pin write their states out, every other row is ignored in reset, and each table holds its
defaults entry by entry. -/
theorem resetPin : Obligations.ResetPin := by
  refine fun s => ⟨rfl, fun held c => exec_held held, fun b => ⟨powerOn b s, rfl, ?_⟩⟩
  -- the runtime state
  refine ⟨rfl, rfl, rfl, rfl, rfl, rfl, rfl, rfl, rfl, rfl, rfl, rfl, rfl, rfl, rfl, ?_⟩
  -- the tables that have an entry for each channel, output, well, curve and point
  refine ⟨fun i => congrArg Channel.cfg (powerOn_channel b i), fun i => congrArg Output.cfg (powerOn_output b i),
    fun i => congrArg Well.cfg (powerOn_well b i),
    fun i => ⟨congrArg Well.permit (powerOn_well b i), congrArg Well.hold (powerOn_well b i)⟩,
    powerOn_curve b, fun i => congrArg Point.cfg (powerOn_point b i), ?_⟩
  -- the tables of one record, and the classes
  exact ⟨rfl, rfl, rfl, rfl, rfl, powerOn_class b, rfl, rfl, rfl⟩

/-- Settles O60: each invariant holds after the reset pin, whatever the state before, and power-on is one such state. -/
theorem invariantsAtReset : Obligations.InvariantsAtReset := by
  intro straps s
  have pin : powerOn straps s = s := rfl
  rw [← pin]
  exact ⟨powerOn_queueInv straps, keeps_ringInv.power straps s, keeps_energyInv.power straps s, ChainInv.of_init rfl,
    (startInv_iff _).mpr (keeps_starts.power straps s), keeps_ceilingInv.power straps s,
    (stopValveInv_iff _).mpr (powerOn_valveSafe straps s)⟩

/-! ## IDENT (R176) -/

theorem ident_checksLength : ChecksLength 0 ident := fun p s h => by
  unfold ident
  split <;> [exact absurd rfl h; rfl]

/-- IDENT without a payload: Table 11-7, with the strap code of the part. -/
theorem ident_empty (s : State) : ident [] s = answer .ok
    [0x57#8, 0x42#8, 0x31#8, 0x60#8, 0x10#8, BitVec.ofNat 8 s.straps.toNat, 96#8, 64#8, 16#8, 8#8, 0x4C#8, 8#8, 64#8, 0x10#8,
      0x00#8, 16#8, 0x1F#8, 0#8] s := by
  have straps : put8 s.straps.toNat = [BitVec.ofNat 8 s.straps.toNat] := congrArg ([·]) (BitVec.ofInt_natCast 8 _)
  simp only [ident, identBytes, straps]
  rfl

/-- Settles O9: IDENT goes by its length check, and its bytes are those of Table 11-7. -/
theorem identAnswered : Obligations.IdentAnswered := fun _ s ready =>
  ⟨fun h => exec_badLength ready rfl ident_checksLength (mt List.eq_nil_of_length_eq_zero h),
    fun h => exec_replied ready rfl (h ▸ ident_empty s.hears)⟩

/-! ## The CRC of frames (R172) -/

/-- Two bytes as a number, the high byte first. -/
theorem toNat_append_byte {n : Nat} (x : BitVec n) (b : Byte) : (x ++ b).toNat = 256 * x.toNat + b.toNat := by
  rw [BitVec.toNat_append, ← Nat.shiftLeft_add_eq_or_of_lt b.isLt, Nat.shiftLeft_eq, Nat.mul_comm]

/-- Its high byte and its low byte are the word. -/
theorem append_bytes (w : Word) : (w.extractLsb' 8 8 ++ w.extractLsb' 0 8 : BitVec 16) = w :=
  BitVec.extractLsb'_append_extractLsb' (w := 8) (len := 8)

theorem crc16_append (as bs : List Byte) : crc16 (as ++ bs) = bs.foldl crc16Byte (crc16 as) := List.foldl_append

/-- A step on a register whose top bit is clear doubles it. -/
theorem toNat_crc16Bit {w : Word} (clear : 2 * w.toNat < 2 ^ 16) : (crc16Bit w).toNat = 2 * w.toNat := by
  have msb : ¬w.msb = true := by simpa using BitVec.msb_eq_false_iff_two_mul_lt.mpr clear
  rw [crc16Bit, if_neg msb, BitVec.toNat_shiftLeft, Nat.shiftLeft_eq, Nat.mul_comm, Nat.mod_eq_of_lt clear]

/-- So do n steps while no bit leaves the register. -/
theorem toNat_crc16Bit_iterate (n : Nat) {w : Word} (fits : 2 ^ n * w.toNat < 2 ^ 16) :
    (crc16Bit^[n] w).toNat = 2 ^ n * w.toNat := by
  induction n with
  | zero => simp
  | succ n ih =>
    rw [Nat.pow_succ', Nat.mul_assoc] at fits ⊢
    have before := ih (by omega)
    rw [Function.iterate_succ_apply', toNat_crc16Bit (by omega), before]

/-- A byte is eight steps. -/
theorem crc16Byte_eq (w : Word) (b : Byte) : crc16Byte w b = crc16Bit^[8] (w ^^^ (b ++ 0x00#8)) := rfl

/-- The byte of a CRC that stands at its top leaves the other byte there. -/
theorem crc16Byte_high (a b : Byte) : crc16Byte (a ++ b) a = b ++ 0x00#8 := by
  have top : (a ++ b : BitVec 16) ^^^ (a ++ 0x00#8) = 0x00#8 ++ b := by
    rw [BitVec.xor_append, BitVec.xor_self, BitVec.xor_zero]
  have start : (0x00#8 ++ b : BitVec 16).toNat = b.toNat := (toNat_append_byte 0x00#8 b).trans (Nat.zero_add _)
  have small := b.isLt
  refine BitVec.eq_of_toNat_eq ?_
  rw [crc16Byte_eq, top, toNat_crc16Bit_iterate 8 (by omega), start, toNat_append_byte]
  rfl

/-- Bytes followed by their own CRC: the register is 0 after them (R172). -/
theorem crc16_sealed (bs : List Byte) : crc16 (bs ++ [(crc16 bs).extractLsb' 8 8, (crc16 bs).extractLsb' 0 8]) = 0#16 := by
  generalize reg : crc16 bs = w
  have bytes := append_bytes w
  rw [crc16_append, reg]
  generalize w.extractLsb' 8 8 = a, w.extractLsb' 0 8 = b at bytes ⊢
  subst bytes
  calc crc16Byte (crc16Byte (a ++ b) a) b = crc16Byte (b ++ 0x00#8) b := by rw [crc16Byte_high]
    _ = 0#16 := crc16Byte_high b 0x00#8

/-- Settles O8: byte by byte the CRC is its definition, and a frame's own CRC, high byte first, takes it to 0. -/
theorem frameCrc : Obligations.FrameCrc := by
  refine ⟨rfl, fun bs b => crc16_append bs [b], by decide +kernel, fun kind r => ?request, fun p => ?reply, crc16_sealed⟩
  case request =>
    have len : (requestBody kind r).length = 3 + r.payload.length := List.length_append
    rw [requestCrc, len]
    rfl
  case reply =>
    intro covered
    have len : ([p.kind, p.tag.extractLsb' 8 8, p.tag.extractLsb' 0 8, p.status.code, p.flags] ++ p.payload).length =
        5 + p.payload.length := List.length_append
    rw [Reply.bytes, len]
    rfl

/-! ## The end of a reply and the level of TXD (R170, R173, R177) -/

theorem restart_checksLength : ChecksLength 0 restart := fun p s h => by
  unfold restart
  split <;> [exact absurd rfl h; rfl]

/-- RESTART without a payload only answers (R177). -/
theorem restart_empty (s : State) : restart [] s = answer .ok [] s := rfl

section ends

variable {s : State} {e : Exchange}

theorem replyEnds_empty (h : s.cpt.buffer = none) : replyEnds s = s := by simp only [replyEnds, h]

theorem restartEnds_empty (h : s.cpt.buffer = none) : restartEnds s = s := by simp only [restartEnds, h]

theorem replyEnds_full (h : s.cpt.buffer = some e) : replyEnds s = emptyBuffer e (s.reachEnd e.sending) := by
  simp only [replyEnds, h]

theorem restartEnds_full (h : s.cpt.buffer = some e) :
    restartEnds s = if e.restarts then restartNow (s.reachEnd e.sending) else s := by simp only [restartEnds, h]

theorem Exchange.restarts_iff : e.restarts = true ↔ e.kind = 0x04#8 ∧ e.reply.status = .ok := decide_eq_true_iff

end ends

/-- The bits of a byte by their places: the start bit, the data bits, the stop bit. -/
theorem byteBits_getElem? (b : Byte) {k : Nat} (h : k < 10) :
    (byteBits b)[k]? = some (if k = 0 then false else if k = 9 then true else b.getLsbD (k - 1)) := by
  match k, h with
  | 0, _ | 1, _ | 2, _ | 3, _ | 4, _ | 5, _ | 6, _ | 7, _ | 8, _ | 9, _ => rfl

/-- Place n of the bits of bytes sent with no gaps is place n mod 10 of byte n / 10. -/
theorem flatMap_byteBits_getElem? (bytes : List Byte) (n : Nat) :
    (bytes.flatMap byteBits)[n]? = bytes[n / 10]?.bind fun b => (byteBits b)[n % 10]? := by
  induction bytes generalizing n with
  | nil => simp
  | cons b rest ih =>
    rw [List.flatMap_cons]
    rcases Nat.lt_or_ge n 10 with first | later
    · rw [List.getElem?_append_left (by rwa [byteBits_length]), Nat.div_eq_of_lt first, Nat.mod_eq_of_lt first]
      rfl
    · have next : n / 10 = (n - 10) / 10 + 1 := by omega
      have same : (n - 10) % 10 = n % 10 := by omega
      rw [List.getElem?_append_right (by rwa [byteBits_length]), byteBits_length, ih, next, same]
      rfl

section txd

variable {s : State} {e : Exchange} (full : s.cpt.buffer = some e)
include full

/-- Before the reply starts, TXD rests at 1. -/
theorem txd_before (early : elapsed e.sending.start s.now < e.delay) : s.txd = true := by
  simp only [State.txd, full, Exchange.level, if_pos early]

/-- From its start on, TXD carries the reply's bits at the strap rate, and 1 after them. -/
theorem txd_sending (started : e.delay ≤ elapsed e.sending.start s.now) : s.txd =
    (e.reply.bytes.flatMap byteBits).getD ((elapsed e.sending.start s.now - e.delay) * portRate s.straps / 1000000) true := by
  simp only [State.txd, full, Exchange.level, if_neg (Nat.not_lt.mpr started)]

end txd

/-- Settles O11: RESTART by its length check, the end of a reply by what the buffer holds, TXD by the place of its bit in the
reply. -/
theorem repliesEnd : Obligations.RepliesEnd := by
  refine ⟨fun s running => ⟨fun r empty h => ?taken, fun r empty h => ?refused, fun e full => ?full, fun empty => ?empty⟩,
    fun s => ⟨fun empty => ?rest, fun e full => ?level⟩⟩
  case taken => exact exec_replied ⟨running, empty⟩ rfl (h ▸ restart_empty s.hears)
  case refused =>
    exact exec_badLength ⟨running, empty⟩ rfl restart_checksLength (mt List.eq_nil_of_length_eq_zero h)
  case full =>
    have sent : exec .replySent s = .next (emptyBuffer e (s.reachEnd e.sending)) :=
      (live_next replyEnds running).trans (congrArg _ (replyEnds_full full))
    have effect : exec .restartEffect s = .next (if e.restarts then restartNow (s.reachEnd e.sending) else s) :=
      (live_next restartEnds running).trans (congrArg _ (restartEnds_full full))
    intro t
    refine ⟨fun kind ok c row => ?_, fun other => ?_⟩
    · have restarts : e.restarts = true := Exchange.restarts_iff.mpr ⟨kind, ok⟩
      rcases row with rfl | rfl
      · rw [sent, emptyBuffer, if_pos restarts]
        rfl
      · rw [effect, if_pos restarts]
        rfl
    · have stays : ¬e.restarts = true := mt Exchange.restarts_iff.mp other
      rw [sent, effect, emptyBuffer, if_neg stays, if_neg stays]
      exact ⟨rfl, rfl⟩
  case empty =>
    exact ⟨(live_next replyEnds running).trans (congrArg _ (replyEnds_empty empty)),
      (live_next restartEnds running).trans (congrArg _ (restartEnds_empty empty))⟩
  case rest => simp only [State.txd, empty]
  case level =>
    intro us bit
    refine ⟨txd_before full, fun started after => ?_, fun k b started place byte => ?_⟩
    · have past : e.reply.bytes.length ≤ bit / 10 := by omega
      rw [txd_sending full started, List.getD_eq_getElem?_getD, flatMap_byteBits_getElem?, List.getElem?_eq_none past]
      rfl
    · subst place
      rw [txd_sending full started, List.getD_eq_getElem?_getD, flatMap_byteBits_getElem?, byte, Option.bind_some,
        byteBits_getElem? b (Nat.mod_lt _ (by decide))]
      rfl

/-! ## The line and the receiver, byte by byte (R170, R171) -/

/-- A line that stays at 0 spells one byte with a framing error (R170). -/
theorem LineRx.bytes_silent {n : Nat} (h : 10 ≤ n) : LineRx.bytes .idle (List.replicate n false) = [.framingError] := by
  obtain ⟨m, rfl⟩ := Nat.exists_eq_add_of_le h
  have split : List.replicate (10 + m) false = false :: List.replicate 8 false ++ false :: List.replicate m false := by
    rw [List.replicate_add]
    rfl
  rw [split, LineRx.bytes_ten _ _ false List.length_replicate, LineRx.bytes_low]
  rfl

theorem receiver_receiver (rx rx' : CptRx) (s : State) : receiver rx (receiver rx' s) = receiver rx s := rfl

/-- A frame does the same from every state of the receiver: taken or not, it leaves HUNT. -/
theorem completeFrame_receiver (kind : Byte) (r : Request) (crc : Word) (rx : CptRx) (s : State) :
    completeFrame kind r crc (receiver rx s) = completeFrame kind r crc s := rfl

/-- Not more than 2 ms and the time of a byte have passed since the last byte of a frame in progress (R171). -/
def State.onTime (s : State) : Prop :=
  ∀ last, s.cpt.rx.last = some last → elapsed last s.now * portRate s.straps ≤ 2000 * portRate s.straps + 10000000

section gap

variable {s : State} {last : Time}

/-- The gap has passed when a byte that ends now began more than 2 ms after the last one. -/
theorem gap_due_iff (h : s.cpt.rx.last = some last) : dueAt s.now s.gapTimer = true ↔
    2000 * portRate s.straps + 10000000 < elapsed last s.now * portRate s.straps := by
  rw [State.gapTimer, h, ← gapUs_le]
  exact decide_eq_true_iff

theorem takeByte_onTime (b : Byte) (h : s.onTime) : takeByte b s = judgeByte b s := by
  have running : ¬dueAt s.now s.gapTimer = true := by
    cases inFrame : s.cpt.rx.last with
    | none => simp [State.gapTimer, inFrame, dueAt]
    | some last => exact (gap_due_iff inFrame).not.mpr (Nat.not_lt.mpr (h last inFrame))
  rw [takeByte, if_neg running]

theorem onTime_hunt (h : s.cpt.rx = .hunt) : s.onTime := fun _ inFrame => by
  rw [h] at inFrame
  cases inFrame

theorem takeByte_late (b : Byte) (h : s.cpt.rx.last = some last)
    (late : ¬elapsed last s.now * portRate s.straps ≤ 2000 * portRate s.straps + 10000000) :
    takeByte b s = takeByte b (receiver .hunt s) := by
  rw [takeByte_onTime b (s := receiver .hunt s) (onTime_hunt rfl), takeByte,
    if_pos ((gap_due_iff h).mpr (Nat.not_le.mp late))]

/-- A byte that ends with the one before it is on time. -/
theorem onTime_now (rx : CptRx) (h : rx.last = some s.now) : (receiver rx s).onTime := fun last inFrame => by
  obtain rfl := Option.some.inj (h.symm.trans inFrame)
  simp [elapsed]

end gap

/-! ### A byte in each state of the receiver -/

section judge

variable {s : State} {last : Time} {len : Byte} (b : Byte)

theorem judgeByte_hunt (h : s.cpt.rx = .hunt) : judgeByte b s = if b = 0xC3#8 then receiver (.length s.now) s else s := by
  simp only [judgeByte, h]

theorem judgeByte_length (h : s.cpt.rx = .length last) :
    judgeByte b s = receiver (if 3 ≤ b.toNat ∧ b.toNat ≤ 250 then .body s.now b [] else .hunt) s := by
  simp only [judgeByte, h, goodLen, decide_eq_true_iff]

theorem judgeByte_body {taken : List Byte} (h : s.cpt.rx = .body last len taken) : judgeByte b s = receiver
    (if taken.length + 1 < len.toNat then .body s.now len (taken ++ [b]) else .check s.now len (taken ++ [b]) none) s := by
  simp only [judgeByte, h, takeBody, List.length_append, List.length_singleton]

theorem judgeByte_crcHigh {body : List Byte} (h : s.cpt.rx = .check last len body none) :
    judgeByte b s = receiver (.check s.now len body (some b)) s := by simp only [judgeByte, h]

theorem judgeByte_crcLow {kind tagHigh tagLow high : Byte} {payload : List Byte}
    (h : s.cpt.rx = .check last len (kind :: tagHigh :: tagLow :: payload) (some high)) :
    judgeByte b s = completeFrame kind ⟨tagHigh ++ tagLow, payload⟩ (high ++ b) s := by
  simp only [judgeByte, h, completeBody]

end judge

/-! ### The bytes of a whole frame -/

/-- Bytes taken one after another. -/
def takeBytes (bs : List Byte) (s : State) : State := bs.foldl (fun t b => takeByte b t) s

theorem takeBytes_append (as bs : List Byte) (s : State) : takeBytes (as ++ bs) s = takeBytes bs (takeBytes as s) :=
  List.foldl_append

theorem takeBytes_cons (b : Byte) (bs : List Byte) (s : State) : takeBytes (b :: bs) s = takeBytes bs (takeByte b s) := rfl

/-- The rows of bytes, one after another, take them (log 31). -/
theorem foldl_exec_byte {f : Host.Outcome State Fault Refusal → Byte → Host.Outcome State Fault Refusal}
    (step : ∀ t b, f (.next t) b = exec (.badLenDiscard b) t) (bs : List Byte) {s : State} (running : s.held = false) :
    bs.foldl f (.next s) = .next (takeBytes bs s) := by
  induction bs generalizing s with
  | nil => rfl
  | cons b rest ih =>
    have kept : (takeByte b s).held = s.held := (takeByte_frame b s).same .held (by decide)
    have row : exec (.badLenDiscard b) s = .next (takeByte b s) := live_next _ running
    rw [List.foldl_cons, step, row, ih (kept.trans running), takeBytes_cons]

section frame

variable (s : State)

/-- BODY takes LEN bytes, and CHECK follows. -/
theorem takeBytes_body {len : Byte} {taken rest : List Byte} (more : rest ≠ []) (count : taken.length + rest.length = len.toNat) :
    takeBytes rest (receiver (.body s.now len taken) s) = receiver (.check s.now len (taken ++ rest) none) s := by
  induction rest generalizing taken with
  | nil => exact absurd rfl more
  | cons b rest ih =>
    rw [List.length_cons] at count
    rw [takeBytes_cons, takeByte_onTime b (onTime_now _ rfl), judgeByte_body b rfl, receiver_receiver, receiver_now]
    rcases rest with _ | ⟨c, rest⟩
    · rw [if_neg (by simp at count; omega)]
      rfl
    · rw [if_pos (by simp at count; omega), ih (List.cons_ne_nil c rest) (by simp at count ⊢; omega), List.append_assoc]
      rfl

/-- The two CRC bytes complete the frame. -/
theorem takeBytes_check {len : Byte} (kind : Byte) (r : Request) (crc : Word) :
    takeBytes [crc.extractLsb' 8 8, crc.extractLsb' 0 8] (receiver (.check s.now len (requestBody kind r) none) s) =
      completeFrame kind r crc s := by
  rw [takeBytes_cons, takeByte_onTime _ (onTime_now _ rfl), judgeByte_crcHigh _ rfl, receiver_receiver, receiver_now,
    takeBytes_cons, takeByte_onTime _ (onTime_now _ rfl), judgeByte_crcLow _ rfl, completeFrame_receiver, append_bytes r.tag,
    append_bytes crc]
  rfl

/-- The bytes of a whole frame, taken from HUNT, do what the frame does (R171). -/
theorem takeBytes_requestBytes (kind : Byte) (r : Request) (crc : Word) (h : s.cpt.rx = .hunt) (fits : r.payload.length ≤ 247) :
    takeBytes (requestBytes kind r crc) s = completeFrame kind r crc s := by
  have size : (requestBody kind r).length = 3 + r.payload.length := List.length_append
  have len : (BitVec.ofNat 8 (requestBody kind r).length).toNat = (requestBody kind r).length :=
    BitVec.toNat_ofNat .. |>.trans (Nat.mod_eq_of_lt (by omega))
  have start : takeByte 0xC3#8 s = receiver (.length s.now) s :=
    (takeByte_onTime _ (onTime_hunt h)).trans ((judgeByte_hunt _ h).trans (if_pos rfl))
  rw [requestBytes, List.cons_append, List.cons_append, takeBytes_cons, start, takeBytes_cons,
    takeByte_onTime _ (onTime_now _ rfl), judgeByte_length _ rfl, if_pos (by omega), receiver_receiver, receiver_now,
    takeBytes_append, takeBytes_body s (taken := []) (rest := requestBody kind r) (List.cons_ne_nil _ _)
      ((Nat.zero_add _).trans len.symm)]
  exact takeBytes_check s kind r crc

end frame

section abandon

variable {s : State} {last : Time}

theorem abandonFrame_hunt (h : s.cpt.rx = .hunt) : abandonFrame s = s := by simp only [abandonFrame, State.gapTimer, h]; rfl

theorem abandonFrame_inFrame (h : s.cpt.rx.last = some last) :
    abandonFrame s = receiver .hunt (s.reachEnd ⟨last, gapUs s.straps⟩) := by
  simp only [abandonFrame, State.gapTimer, h, Option.map_some]

end abandon

/-- Settles O7: the line by its levels, each state of the receiver by the byte it takes, and a whole frame by induction on its
body. -/
theorem failedFramesAreSilent : Obligations.FailedFramesAreSilent := by
  refine ⟨⟨by decide, by decide, fun b => rfl, LineRx.bytes_byteBits, fun data levels h => LineRx.bytes_ten data levels false h,
    fun levels => ⟨rfl, rfl, rfl⟩, fun n => LineRx.bytes_silent,
    fun b s running => ⟨live_next _ running, live_next _ running⟩⟩,
    fun s running => ?_⟩
  intro rate inTime rxAt
  have byte (b : Byte) : exec (.badLenDiscard b) s = .next (takeByte b s) := live_next _ running
  have judged (b : Byte) (h : s.onTime) : exec (.badLenDiscard b) s = .next (judgeByte b s) :=
    (byte b).trans (congrArg _ (takeByte_onTime b h))
  have inFrame {last : Time} {rx : CptRx} (h : s.cpt.rx = rx) (isLast : rx.last = some last) (time : inTime last) : s.onTime :=
    fun l hl => by
      obtain rfl := Option.some.inj (isLast.symm.trans ((congrArg CptRx.last h).symm.trans hl))
      exact time
  have frame (kind : Byte) (r : Request) (crc : Word) :
      exec (.crcMismatchDiscard kind r crc) s = .next (completeFrame kind r crc s) := live_next _ running
  refine ⟨fun kind r crc other => (frame kind r crc).trans (congrArg _ (if_neg other)),
    fun kind r => (frame kind r _).trans ((congrArg _ (if_pos rfl)).trans (live_next (anyFrame kind r) running).symm),
    fun h b => (judged b (onTime_hunt h)).trans (congrArg _ (judgeByte_hunt b h)),
    fun last h time len => (judged len (inFrame h rfl time)).trans (congrArg _ (judgeByte_length len h)),
    fun last len taken h time b => (judged b (inFrame h rfl time)).trans (congrArg _ (judgeByte_body b h)),
    fun last len body h time b => (judged b (inFrame h rfl time)).trans (congrArg _ (judgeByte_crcHigh b h)),
    fun last len kind tagHigh tagLow payload high h time b =>
      (judged b (inFrame h rfl time)).trans ((congrArg _ (judgeByte_crcLow b h)).trans (frame kind _ _).symm),
    fun last h late b => ?late, fun h kind r crc fits => ?whole, live_next _ running,
    fun h => (live_next abandonFrame running).trans (congrArg _ (abandonFrame_hunt h)), fun last h => ?gap⟩
  case late =>
    have hunting : exec (.badLenDiscard b) (rxAt .hunt) = .next (takeByte b (receiver .hunt s)) := live_next _ running
    rw [byte, hunting, takeByte_late b h late]
  case whole =>
    intro bytes
    have sent : bytes = requestBytes kind r crc := by
      have size : (requestBody kind r).length = 3 + r.payload.length := List.length_append
      rw [requestBytes, size]
      rfl
    rw [foldl_exec_byte (fun t b => rfl) bytes running, sent, takeBytes_requestBytes s kind r crc h fits, frame]
  case gap =>
    have us : gapUs s.straps = 2000 + 10000000 / rate + 1 := rfl
    exact (live_next abandonFrame running).trans (congrArg _ ((abandonFrame_inFrame h).trans (us ▸ rfl)))

/-! ## What a table's reader takes and refuses (R175) -/

/-- A reader that answers exactly the records of which `ok` holds, with the fields that are said. -/
structure Reads {α : Type} (r : Option α) (ok : Prop) (fields : α → Prop) : Prop where
  refuses : ¬ok → r = none
  answers : ok → ∃ a, r = some a ∧ fields a

namespace Reads

variable {α β : Type} {r : Option α} {ok ok' : Prop} {fields : α → Prop}

/-- A field read before the rest of the record. -/
theorem bind {f : α → Option β} {more : Prop} {whole : β → Prop} (h : Reads r ok fields)
    (rest : ∀ a, fields a → Reads (f a) more whole) : Reads (r >>= f) (ok ∧ more) whole where
  refuses bad := by
    by_cases first : ok
    · obtain ⟨a, rfl, ha⟩ := h.answers first
      exact (rest a ha).refuses fun second => bad ⟨first, second⟩
    · rw [h.refuses first]
      rfl
  answers good := by
    obtain ⟨a, rfl, ha⟩ := h.answers good.1
    exact (rest a ha).answers good.2

/-- The record itself, when its ranges hold. -/
theorem ofIte [Decidable ok] {a : α} (h : ok → fields a) : Reads (if ok then some a else none) ok fields where
  refuses bad := if_neg bad
  answers good := ⟨a, if_pos good, h good⟩

theorem congr (same : ok ↔ ok') (h : Reads r ok fields) : Reads r ok' fields where
  refuses bad := h.refuses fun good => bad (same.mp good)
  answers good := h.answers (same.mpr good)

theorem map {f : α → β} {whole : β → Prop} (h : Reads r ok fields) (imp : ∀ a, fields a → whole (f a)) :
    Reads (r.map f) ok whole where
  refuses bad := by rw [h.refuses bad, Option.map_none]
  answers good := by
    obtain ⟨a, rfl, ha⟩ := h.answers good
    exact ⟨f a, rfl, imp a ha⟩

theorem isSome_iff (h : Reads r ok fields) : r.isSome = true ↔ ok := by
  refine ⟨fun some => not_not.mp fun bad => ?_, fun good => ?_⟩
  · rw [h.refuses bad] at some
    cases some
  · obtain ⟨a, rfl, -⟩ := h.answers good
    rfl

/-- A reader by when it answers, and by what an answer has. -/
theorem ofSome (sound : ∀ a, r = some a → fields a) (range : r.isSome = true ↔ ok) : Reads r ok fields where
  refuses bad := Option.not_isSome_iff_eq_none.mp (mt range.mp bad)
  answers good := by
    obtain ⟨a, ha⟩ := Option.isSome_iff_exists.mp (range.mpr good)
    exact ⟨a, ha, sound a ha⟩

/-- A record refused is answered with BAD_VALUE and stores nothing, and one that is taken is stored. -/
theorem stored {put : α → State} {s : State} (h : Reads r ok fields) :
    (¬ok → storeIf r put s = (.badValue, s)) ∧ (ok → ∃ a, storeIf r put s = (.ok, put a) ∧ fields a) := by
  refine ⟨fun bad => ?_, fun good => ?_⟩
  · rw [h.refuses bad]
    rfl
  · obtain ⟨a, rfl, ha⟩ := h.answers good
    exact ⟨a, rfl, ha⟩

/-- So too when the fields are the whole record. -/
theorem stored_eq {put : α → State} {s : State} {a : α} (h : Reads r ok (· = a)) :
    (¬ok → storeIf r put s = (.badValue, s)) ∧ (ok → storeIf r put s = (.ok, put a)) := by
  refine ⟨h.stored.1, fun good => ?_⟩
  obtain ⟨_, stored, rfl⟩ := h.stored.2 good
  exact stored

end Reads

/-! ### Numbers of two and of four bytes -/

section numbers

variable (b : List Byte) (i : Nat)

theorem u8_nonneg : 0 ≤ u8 b i := Int.natCast_nonneg _

theorem u16_nonneg : 0 ≤ u16 b i := Int.natCast_nonneg _

theorem u16_eq : u16 b i = 256 * u8 b i + u8 b (i + 1) := by
  unfold u16 u8
  rw [toNat_append_byte]
  push_cast
  rfl

theorem s16_eq : s16 b i = if u16 b i < 32768 then u16 b i else u16 b i - 65536 := by
  unfold s16 u16
  rw [BitVec.toInt_eq_toNat_cond]
  split <;> split <;> omega

theorem u32_eq : u32 b i = 65536 * u16 b i + u16 b (i + 2) := by
  unfold u32 word32
  rw [u16_eq, u16_eq, toNat_append_byte, toNat_append_byte, toNat_append_byte]
  unfold u8
  push_cast
  ring

theorem s32_eq : s32 b i = if u32 b i < 2147483648 then u32 b i else u32 b i - 4294967296 := by
  unfold s32 u32
  rw [BitVec.toInt_eq_toNat_cond]
  split <;> split <;> omega

end numbers

/-! ### One field -/

/-- The byte of an index, 255 when it is none. -/
def optNumber {n : Nat} : Option (Fin n) → Int
  | none => 255
  | some i => i.val

theorem isSome_iff_optNumber {n : Nat} (h : n ≤ 255) (x : Option (Fin n)) : x.isSome = true ↔ optNumber x ≠ 255 := by
  cases x with
  | none => simp [optNumber]
  | some k =>
    have := k.isLt
    simp [optNumber]
    omega

section field

variable (b : List Byte) (i n : Nat)

theorem index?_reads (x : Int) : Reads (index? n x) (0 ≤ x ∧ x < n) fun k => (k.val : Int) = x where
  refuses bad := dif_neg fun good => bad (by omega)
  answers good := ⟨⟨x.toNat, by omega⟩, dif_pos (by omega), Int.toNat_of_nonneg good.1⟩

theorem readIndex_reads : Reads (readIndex n b i) (u8 b i < n) fun k => (k.val : Int) = u8 b i :=
  .congr (and_iff_right (u8_nonneg b i)) (index?_reads n _)

theorem readOptIndex_reads : Reads (readOptIndex n b i) (u8 b i < n ∨ u8 b i = 255) fun x => optNumber x = u8 b i := by
  unfold readOptIndex
  split
  · next none => exact ⟨fun bad => absurd (Or.inr none) bad, fun _ => ⟨_, rfl, none.symm⟩⟩
  · next given => exact .congr (or_iff_left given).symm ((readIndex_reads b i n).map fun _ h => h)

theorem readFlag_reads : Reads (readFlag b i) (u8 b i ≤ 1) (· = decide (u8 b i = 1)) := by
  have := u8_nonneg b i
  unfold readFlag
  split
  · next zero => exact ⟨fun bad => absurd (by omega) bad, fun _ => ⟨_, rfl, by simp [zero]⟩⟩
  · exact .congr (by omega) (.ofIte fun one => by simp [one])

theorem Position.reads {j : Nat} (next : i + 1 = j) : Reads (Position.read b i) (u8 b i < 6 ∧ u8 b j < 28) fun p =>
    (p.frame.val : Int) = u8 b i ∧ (p.slot.val : Int) = u8 b j := by
  subst next
  have frame := readIndex_reads b i 6
  have slot := readIndex_reads b (i + 1) 28
  have read : Position.read b i = (readIndex 6 b i).bind fun f => (readIndex 28 b (i + 1)).map fun s => ⟨f, s⟩ := by
    unfold Position.read readIndex
    cases index? 6 (u8 b i) <;> cases index? 28 (u8 b (i + 1)) <;> rfl
  rw [read]
  exact frame.bind fun f hf => slot.map fun s hs => ⟨hf, hs⟩

end field

/-! ### Codes -/

section codes

variable (x idx : Int)

theorem Kind.ofCode_reads : Reads (Kind.ofCode x) (0 ≤ x ∧ x ≤ 7) fun k => k.code = x :=
  .ofSome (fun _ => Kind.code_ofCode) (by unfold Kind.ofCode; (repeat' split) <;> simp <;> omega)

theorem Role.ofCode_reads : Reads (Role.ofCode x) (0 ≤ x ∧ x ≤ 2) fun k => k.code = x :=
  .ofSome (fun _ => Role.code_ofCode) (by unfold Role.ofCode; (repeat' split) <;> simp <;> omega)

theorem Resolution.ofCode_reads : Reads (Resolution.ofCode x) (0 ≤ x ∧ x ≤ 2) fun k => k.code = x :=
  .ofSome (fun _ => Resolution.code_ofCode) (by unfold Resolution.ofCode; (repeat' split) <;> simp <;> omega)

theorem Trigger.ofCode_reads : Reads (Trigger.ofCode x) (0 ≤ x ∧ x ≤ 3) fun k => k.code = x :=
  .ofSome (fun _ => Trigger.code_ofCode) (by unfold Trigger.ofCode; (repeat' split) <;> simp <;> omega)

/-- A source in the two bytes of its record (Table 3-2). -/
def Source.numbers : Source → Int × Int
  | .wellRun i => (0, i.val)
  | .wellSpeed i => (1, i.val)
  | .heatValve => (2, 0)
  | .bypassValve => (3, 0)
  | .stopValve => (4, 0)
  | .direct i => (5, i.val)

theorem Source.numbers_eq (k : Source) : k.numbers = (k.code, k.index) := by cases k <;> rfl

theorem Source.ofCode_reads : Reads (Source.ofCode x idx)
    (0 ≤ idx ∧ ((0 ≤ x ∧ x ≤ 1 ∧ idx ≤ 15) ∨ (2 ≤ x ∧ x ≤ 4 ∧ idx = 0) ∨ (x = 5 ∧ idx ≤ 7)))
    fun k => k.numbers = (x, idx) := by
  refine .ofSome (fun k read => ?_) ?_
  · obtain ⟨code, index⟩ := Source.code_ofCode read
    rw [k.numbers_eq, code, index]
  · unfold Source.ofCode
    (repeat' split) <;> simp [(index?_reads _ _).isSome_iff] <;> omega

/-- A capture source in its two bytes (Table 10-2). -/
def CaptureSource.numbers : CaptureSource → Int × Int
  | .channel c => (0, c.val)
  | .si p => (1, p.val)
  | .floor p => (2, p.val)
  | .pceil => (3, 0)
  | .heatdem => (4, 0)

theorem CaptureSource.ofCode_reads : Reads (CaptureSource.ofCode x idx)
    (0 ≤ idx ∧ ((x = 0 ∧ idx ≤ 95) ∨ ((x = 1 ∨ x = 2) ∧ idx ≤ 7) ∨ ((x = 3 ∨ x = 4) ∧ idx = 0)))
    fun k => k.numbers = (x, idx) := by
  unfold CaptureSource.ofCode
  split
  · next code => exact .congr (by omega) ((index?_reads 96 idx).map fun k index => Prod.ext code.symm index)
  split
  · next code => exact .congr (by omega) ((index?_reads 8 idx).map fun k index => Prod.ext code.symm index)
  split
  · next code => exact .congr (by omega) ((index?_reads 8 idx).map fun k index => Prod.ext code.symm index)
  split
  · next code => exact .congr (by omega) (.ofIte fun index => Prod.ext code.symm index.symm)
  split
  · next code => exact .congr (by omega) (.ofIte fun index => Prod.ext code.symm index.symm)
  · exact ⟨fun _ => rfl, fun good => absurd good (by omega)⟩

end codes

/-! ### The records of the tables of fixed size -/

theorem within_iff {lo hi x : Int} : within lo hi x = true ↔ lo ≤ x ∧ x ≤ hi := decide_eq_true_iff

section records

variable (b : List Byte)

theorem LoopRecord.reads : Reads (LoopRecord.read b)
    (u8 b 0 ≤ 3 ∧ u8 b 1 ≤ 1 ∧ (u8 b 2 = 3 ∨ u8 b 2 = 4) ∧ (u8 b 3 = 8 ∨ u8 b 3 = 10) ∧ 100 ≤ u16 b 4 ∧ u16 b 4 ≤ 10000)
    fun c => (c.rate.val : Int) = u8 b 0 ∧ c.autoRate = decide (u8 b 1 = 1) ∧ (c.lossCount : Int) = u8 b 2 ∧
      (c.counterWidth : Int) = u8 b 3 ∧ (c.blindMs : Int) = u16 b 4 := by
  refine .congr ?_ ((readIndex_reads b 0 4).bind fun rate hrate => (readFlag_reads b 1).bind fun auto hauto =>
    .ofIte fun _ => ⟨hrate, hauto, ?_⟩)
  · simp only [within_iff]
    omega
  · simp

theorem ChannelRecord.reads : Reads (ChannelRecord.read b)
    (let low : Int := if u8 b 3 = 0 then -2731 else 0
      let high : Int := [20000, 200000, 200000, 60000, 65535, 1000000, 1, 1000].getD (byteAt b 3).toNat 0
      u8 b 0 ≤ 3 ∧ u8 b 1 ≤ 5 ∧ u8 b 2 ≤ 27 ∧ u8 b 3 ≤ 7 ∧ s32 b 10 < s32 b 14 ∧ low ≤ s32 b 10 ∧ s32 b 10 ≤ high ∧
        low ≤ s32 b 14 ∧ s32 b 14 ≤ high ∧ 1 ≤ u8 b 18)
    fun c => c.inUse = (byteAt b 0).getLsbD 0 ∧ c.signedRaw = (byteAt b 0).getLsbD 1 ∧ (c.pos.frame.val : Int) = u8 b 1 ∧
      (c.pos.slot.val : Int) = u8 b 2 ∧ c.kind.code = u8 b 3 ∧ c.gain = s16 b 4 ∧ c.offset = s32 b 6 ∧ c.lo = s32 b 10 ∧
      c.hi = s32 b 14 ∧ (c.staleLimit : Int) = u8 b 18 := by
  extract_lets low high
  have kindLow (k : Kind) (h : k.code = u8 b 3) : k.low = low := by
    simp only [low, ← h]
    cases k <;> rfl
  have kindHigh (k : Kind) (h : k.code = u8 b 3) : k.high = high := by
    have byte : (byteAt b 3).toNat = k.code.toNat := by rw [h]; rfl
    simp only [high, byte]
    cases k <;> rfl
  have nonneg := u8_nonneg b 3
  refine .congr ?_ ((Position.reads b 1 (j := 2) rfl).bind fun pos hpos => (Kind.ofCode_reads (u8 b 3)).bind fun kind hkind =>
    .congr (ok := u8 b 0 ≤ 3 ∧ s32 b 10 < s32 b 14 ∧ within kind.low kind.high (s32 b 10) ∧
        within kind.low kind.high (s32 b 14) ∧ 1 ≤ u8 b 18)
      (ok' := u8 b 0 ≤ 3 ∧ s32 b 10 < s32 b 14 ∧ within low high (s32 b 10) ∧ within low high (s32 b 14) ∧ 1 ≤ u8 b 18) ?_
      (.ofIte fun _ => ⟨rfl, rfl, hpos.1, hpos.2, hkind, rfl, rfl, rfl, rfl, ?_⟩))
  · simp only [within_iff]
    clear_value low high
    omega
  · rw [kindLow kind hkind, kindHigh kind hkind]
  · simp

theorem Source.failSafeMax_eq (k : Source) : k.failSafeMax = if k.code = 0 then 1 else if k.code = 4 then 0 else 1000 := by
  cases k <;> rfl

theorem OutputRecord.reads : Reads (OutputRecord.read b)
    (u8 b 0 ≤ 1 ∧ u8 b 1 ≤ 5 ∧ u8 b 2 ≤ 27 ∧
      ((u8 b 3 ≤ 1 ∧ u8 b 4 ≤ 15) ∨ (2 ≤ u8 b 3 ∧ u8 b 3 ≤ 4 ∧ u8 b 4 = 0) ∨ (u8 b 3 = 5 ∧ u8 b 4 ≤ 7)) ∧ 1 ≤ u16 b 5 ∧
      u16 b 5 ≤ 1000 ∧ u16 b 7 ≤ (if u8 b 3 = 0 then 1 else if u8 b 3 = 4 then 0 else 1000))
    fun c => c.inUse = decide (u8 b 0 = 1) ∧ (c.pos.frame.val : Int) = u8 b 1 ∧ (c.pos.slot.val : Int) = u8 b 2 ∧
      c.source.numbers = (u8 b 3, u8 b 4) ∧ c.ramp = u16 b 5 ∧ c.failSafe = u16 b 7 := by
  have code := u8_nonneg b 3
  have idx := u8_nonneg b 4
  generalize most : (if u8 b 3 = 0 then (1 : Int) else if u8 b 3 = 4 then 0 else 1000) = max
  refine .congr ?_ ((readFlag_reads b 0).bind fun inUse hinUse => (Position.reads b 1 (j := 2) rfl).bind fun pos hpos =>
    (Source.ofCode_reads (u8 b 3) (u8 b 4)).bind fun source hsource =>
      .congr (ok' := within 1 1000 (u16 b 5) ∧ u16 b 7 ≤ max) ?_ (.ofIte fun _ => ⟨hinUse, hpos.1, hpos.2, hsource, rfl, rfl⟩))
  · simp only [within_iff]
    omega
  · have code : source.code = u8 b 3 := congrArg Prod.fst (source.numbers_eq.symm.trans hsource)
    rw [source.failSafeMax_eq, code, most]

theorem WellRecord.reads : Reads (WellRecord.read b)
    (u8 b 0 ≤ 2 ∧ u8 b 1 ≤ 95 ∧ u8 b 2 ≤ 95 ∧ (u8 b 3 ≤ 95 ∨ u8 b 3 = 255) ∧ u16 b 4 ≤ 1000 ∧ u32 b 6 ≤ 200000 ∧
      1000 ≤ u32 b 10 ∧ u32 b 10 ≤ 600000 ∧ u32 b 14 ≤ 200000 ∧ 1 ≤ u8 b 18 ∧ 2 ≤ u8 b 19 ∧ u8 b 19 ≤ 4 ∧ 1 ≤ u16 b 20 ∧
      u16 b 20 ≤ 1440 ∧ u32 b 22 ≤ 200000 ∧ (u8 b 26 ≤ 7 ∨ u8 b 26 = 255) ∧ u16 b 27 ≤ 1000)
    fun c => c.role.code = u8 b 0 ∧ (c.flow.val : Int) = u8 b 1 ∧ (c.intake.val : Int) = u8 b 2 ∧ optNumber c.motor = u8 b 3 ∧
      c.startSpeed = u16 b 4 ∧ c.minFlow = u32 b 6 ∧ (c.startMs : Int) = u32 b 10 ∧ c.intakeLimit = u32 b 14 ∧
      (c.intakePersistence : Int) = u8 b 18 ∧ (c.tripLimit : Int) = u8 b 19 ∧ (c.windowMin : Int) = u16 b 20 ∧
      c.rated = u32 b 22 ∧ optNumber c.point = u8 b 26 ∧ c.derate = u16 b 27 := by
  have role := u8_nonneg b 0
  refine .congr ?_ ((Role.ofCode_reads (u8 b 0)).bind fun role hrole => (readIndex_reads b 1 96).bind fun flow hflow =>
    (readIndex_reads b 2 96).bind fun intake hintake => (readOptIndex_reads b 3 96).bind fun motor hmotor =>
      (readOptIndex_reads b 26 8).bind fun point hpoint => .ofIte fun _ => ⟨hrole, hflow, hintake, hmotor, ?_⟩)
  · simp only [within_iff]
    omega
  · simpa using hpoint

theorem PlantRecord.reads : Reads (PlantRecord.read b)
    (u16 b 0 ≤ 1000 ∧ 1 ≤ u16 b 2 ∧ u16 b 2 ≤ 200 ∧ 1 ≤ u16 b 4 ∧ u16 b 4 ≤ 200 ∧ u16 b 6 ≤ 500 ∧ u8 b 8 ≤ 1 ∧
      (u8 b 9 ≤ 95 ∨ u8 b 9 = 255) ∧ (u8 b 10 ≤ 95 ∨ u8 b 10 = 255) ∧ u32 b 11 ≤ 600000)
    fun c => c.ceilingMin = u16 b 0 ∧ c.runback = u16 b 2 ∧ c.recover = u16 b 4 ∧ c.margin = u16 b 6 ∧
      c.check = decide (u8 b 8 = 1) ∧ optNumber c.brine = u8 b 9 ∧ optNumber c.steam = u8 b 10 ∧ (c.staggerMs : Int) = u32 b 11 := by
  refine .congr ?_ ((readFlag_reads b 8).bind fun check hcheck => (readOptIndex_reads b 9 96).bind fun brine hbrine =>
    (readOptIndex_reads b 10 96).bind fun steam hsteam => .ofIte fun _ => ⟨rfl, rfl, rfl, rfl, hcheck, hbrine, hsteam, ?_⟩)
  · simp only [within_iff]
    omega
  · simp

theorem TurbineRecord.reads : Reads (TurbineRecord.read b)
    (u8 b 0 ≤ 95 ∧ 1 ≤ u16 b 1 ∧ u16 b 1 ≤ 60000 ∧ u8 b 3 ≤ 95 ∧ u32 b 4 ≤ 200000 ∧ 1 ≤ u8 b 8 ∧ u32 b 4 ≤ u32 b 9 ∧
      u32 b 9 ≤ 200000 ∧ u16 b 13 ≤ 600 ∧ u8 b 15 ≤ 95 ∧ u32 b 16 ≤ 86400 ∧ u16 b 20 ≤ 60000 ∧ u8 b 22 ≤ 95 ∧
      u32 b 23 ≤ 1000000 ∧ 1 ≤ u8 b 27 ∧ u32 b 28 ≤ u32 b 23 ∧ u16 b 32 ≤ 3600 ∧ (u8 b 34 ≤ 95 ∨ u8 b 34 = 255) ∧
      u32 b 35 ≤ 200000 ∧ u16 b 39 ≤ 1000)
    fun c => (c.speed.val : Int) = u8 b 0 ∧ c.tripSpeed = u16 b 1 ∧ (c.lube.val : Int) = u8 b 3 ∧ c.lubeTrip = u32 b 4 ∧
      (c.lubePersistence : Int) = u8 b 8 ∧ c.lubeRun = u32 b 9 ∧ (c.lubeHoldS : Int) = u16 b 13 ∧ (c.gear.val : Int) = u8 b 15 ∧
      (c.warmS : Int) = u32 b 16 ∧ c.turningSpeed = u16 b 20 ∧ (c.purity.val : Int) = u8 b 22 ∧ c.purityTrip = u32 b 23 ∧
      (c.purityPersistence : Int) = u8 b 27 ∧ c.purityStart = u32 b 28 ∧ (c.purityHoldS : Int) = u16 b 32 ∧
      optNumber c.field = u8 b 34 ∧ c.bypassCapacity = u32 b 35 ∧ c.bypassPosition = u16 b 39 := by
  refine .congr ?_ ((readIndex_reads b 0 96).bind fun speed hspeed => (readIndex_reads b 3 96).bind fun lube hlube =>
    (readIndex_reads b 15 96).bind fun gear hgear => (readIndex_reads b 22 96).bind fun purity hpurity =>
      (readOptIndex_reads b 34 96).bind fun field hfield => .ofIte fun _ => ⟨hspeed, rfl, hlube, rfl, ?_⟩)
  · simp only [within_iff]
    omega
  · simp [hgear, hpurity, hfield]

theorem HeatingRecord.reads : Reads (HeatingRecord.read b)
    (u8 b 0 ≤ 1 ∧ (∀ k, 1 ≤ k → k ≤ 7 → u8 b k ≤ 95) ∧ 3000 ≤ u16 b 8 ∧ u16 b 8 ≤ 5000 ∧ 3000 ≤ u16 b 10 ∧ u16 b 10 ≤ 5000 ∧
      1 ≤ u32 b 12 ∧ u32 b 12 ≤ 200000 ∧ (-2731 ≤ s16 b 16 ∧ s16 b 16 ≤ 20000) ∧ (-2731 ≤ s16 b 18 ∧ s16 b 18 ≤ 20000) ∧
      s16 b 16 ≤ s16 b 18 ∧ (-2731 ≤ s16 b 20 ∧ s16 b 20 ≤ 20000) ∧ (-2731 ≤ s16 b 22 ∧ s16 b 22 ≤ 20000) ∧
      (u8 b 24 ≤ 7 ∨ u8 b 24 = 255) ∧ u16 b 26 ≤ 500 ∧ 1 ≤ u16 b 28 ∧ u16 b 28 ≤ 1000 ∧ 1 ≤ u8 b 30 ∧ u32 b 31 ≤ 200000 ∧
      1 ≤ u8 b 35)
    fun c => c.enable = decide (u8 b 0 = 1) ∧ (c.outdoor.val : Int) = u8 b 1 ∧ (c.districtReturn.val : Int) = u8 b 2 ∧
      (c.districtSupply.val : Int) = u8 b 3 ∧ (c.districtFlow.val : Int) = u8 b 4 ∧ (c.brineInlet.val : Int) = u8 b 5 ∧
      (c.brineOutlet.val : Int) = u8 b 6 ∧ (c.brineFlow.val : Int) = u8 b 7 ∧ c.cpD = u16 b 8 ∧ c.cpB = u16 b 10 ∧
      c.qRated = u32 b 12 ∧ c.setMin = s16 b 16 ∧ c.setMax = s16 b 18 ∧ c.absFloor = s16 b 20 ∧ c.fallFloor = s16 b 22 ∧
      optNumber c.floorPoint = u8 b 24 ∧ (c.floorHold : Int) = u8 b 25 ∧ c.guardBand = u16 b 26 ∧ c.guardStep = u16 b 28 ∧
      (c.guardPersistence : Int) = u8 b 30 ∧ c.deficitKw = u32 b 31 ∧ (c.deficitPersistence : Int) = u8 b 35 := by
  have channels : (∀ k, 1 ≤ k → k ≤ 7 → u8 b k ≤ 95) ↔ u8 b 1 ≤ 95 ∧ u8 b 2 ≤ 95 ∧ u8 b 3 ≤ 95 ∧ u8 b 4 ≤ 95 ∧ u8 b 5 ≤ 95 ∧
      u8 b 6 ≤ 95 ∧ u8 b 7 ≤ 95 := by
    refine ⟨fun h => ⟨h 1 (by decide) (by decide), h 2 (by decide) (by decide), h 3 (by decide) (by decide),
      h 4 (by decide) (by decide), h 5 (by decide) (by decide), h 6 (by decide) (by decide), h 7 (by decide) (by decide)⟩, ?_⟩
    rintro ⟨h1, h2, h3, h4, h5, h6, h7⟩ k low high
    interval_cases k <;> assumption
  refine .congr ?_ ((readFlag_reads b 0).bind fun enable henable => (readIndex_reads b 1 96).bind fun outdoor houtdoor =>
    (readIndex_reads b 2 96).bind fun ret hret => (readIndex_reads b 3 96).bind fun supply hsupply =>
      (readIndex_reads b 4 96).bind fun flow hflow => (readIndex_reads b 5 96).bind fun inlet hinlet =>
        (readIndex_reads b 6 96).bind fun outlet houtlet => (readIndex_reads b 7 96).bind fun brine hbrine =>
          (readOptIndex_reads b 24 8).bind fun point hpoint =>
            .ofIte fun _ => ⟨henable, houtdoor, hret, hsupply, hflow, hinlet, houtlet, hbrine, ?_⟩)
  · rw [channels]
    simp only [within_iff]
    omega
  · simp [hpoint]

theorem PointRecord.reads : Reads (PointRecord.read b)
    (u8 b 0 ≤ 7 ∧ u8 b 1 ≤ 95 ∧ (u8 b 2 ≤ 95 ∨ u8 b 2 = 255) ∧ ((byteAt b 0).getLsbD 1 = true ∨ u8 b 2 ≠ 255) ∧ u8 b 3 ≤ 3 ∧
      500 ≤ u16 b 4 ∧ u16 b 4 ≤ 5000 ∧ 500 ≤ u16 b 6 ∧ u16 b 6 ≤ 5000 ∧ u16 b 4 ≤ u16 b 6 ∧ 500 ≤ u16 b 8 ∧ u16 b 8 ≤ 5000 ∧
      u16 b 10 ≤ 500 ∧ 1 ≤ u8 b 12 ∧ 1 ≤ u8 b 13 ∧ 1 ≤ u8 b 14)
    fun c => c.inUse = (byteAt b 0).getLsbD 0 ∧ c.lab = (byteAt b 0).getLsbD 1 ∧ c.unity = (byteAt b 0).getLsbD 2 ∧
      (c.temp.val : Int) = u8 b 1 ∧ optNumber c.silica = u8 b 2 ∧ (c.curve.val : Int) = u8 b 3 ∧ c.warn = u16 b 4 ∧
      c.alarm = u16 b 6 ∧ c.limit = u16 b 8 ∧ c.hysteresis = u16 b 10 ∧ (c.alarmPersistence : Int) = u8 b 12 ∧
      (c.clearPersistence : Int) = u8 b 13 ∧ (c.holdLimit : Int) = u8 b 14 := by
  refine .congr ?_ ((readIndex_reads b 1 96).bind fun temp htemp => (readOptIndex_reads b 2 96).bind fun silica hsilica =>
    (readIndex_reads b 3 4).bind fun curve hcurve =>
      .congr (ok' := u8 b 0 ≤ 7 ∧ (u8 b 2 ≠ 255 ∨ (byteAt b 0).getLsbD 1 = true) ∧ within 500 5000 (u16 b 4) ∧
          within 500 5000 (u16 b 6) ∧ u16 b 4 ≤ u16 b 6 ∧ within 500 5000 (u16 b 8) ∧ u16 b 10 ≤ 500 ∧ 1 ≤ u8 b 12 ∧
          1 ≤ u8 b 13 ∧ 1 ≤ u8 b 14) ?_
        (.ofIte fun _ => ⟨rfl, rfl, rfl, htemp, hsilica, hcurve, ?_⟩))
  · simp only [within_iff]
    cases (byteAt b 0).getLsbD 1 <;> simp <;> omega
  · rw [isSome_iff_optNumber (by decide), hsilica]
  · simp

theorem TimingRecord.reads : Reads (TimingRecord.read b)
    (100 ≤ u16 b 0 ∧ u16 b 0 ≤ 60000 ∧ u8 b 2 ≤ 2 ∧ 10 ≤ u16 b 3 ∧ u16 b 3 ≤ 600 ∧ u32 b 5 ≤ 3600000)
    fun c => (c.hostMs : Int) = u16 b 0 ∧ c.resolution.code = u8 b 2 ∧ (c.syncHoldS : Int) = u16 b 3 ∧
      (c.stepMs : Int) = u32 b 5 := by
  have code := u8_nonneg b 2
  refine .congr ?_ ((Resolution.ofCode_reads (u8 b 2)).bind fun res hres => .ofIte fun _ => ⟨?_, hres, ?_⟩)
  · simp only [within_iff]
    omega
  · simp
  · simp

theorem Permit.reads : Reads (Permit.read b) (u8 b 0 ≤ 15)
    (· = ⟨(byteAt b 0).getLsbD 0, (byteAt b 0).getLsbD 1, (byteAt b 0).getLsbD 2, (byteAt b 0).getLsbD 3⟩) := .ofIte fun _ => rfl

theorem ClassEntry.reads (old : ClassEntry) : Reads (old.read b) (u8 b 0 ≤ 3)
    (· = { old with log := (byteAt b 0).getLsbD 0, attend := (byteAt b 0).getLsbD 1 }) := .ofIte fun _ => rfl

end records
/-! ### Curves (R120, R135) -/

section curves

variable (b : List Byte)

/-- The points of a curve, from byte 1 on, four bytes each. -/
theorem readPoints_eq (y : List Byte → Nat → Int) (n : Nat) :
    readPoints y b 1 n = (List.range n).map fun k => ⟨s16 b (1 + 4 * k), y b (3 + 4 * k)⟩ := by
  have go (i : Nat) : readPoints y b i n = (List.range n).map fun k => ⟨s16 b (i + 4 * k), y b (i + 4 * k + 2)⟩ := by
    induction n generalizing i with
    | zero => rfl
    | succ n ih =>
      have shift (k : Nat) : i + 4 + 4 * k = i + 4 * (k + 1) := by ring
      rw [readPoints, ih, List.range_succ_eq_map, List.map_cons, List.map_map]
      simp only [Function.comp_def, Nat.succ_eq_add_one, shift]
      rfl
  have second (k : Nat) : 1 + 4 * k + 2 = 3 + 4 * k := by ring
  simp only [go, second]

/-- An order that holds from each place of a list to the next holds throughout. -/
theorem pairwise_map_range {α : Type} {R : α → α → Prop} (trans : ∀ x y z, R x y → R y z → R x z) (f : Nat → α) (n : Nat) :
    ((List.range n).map f).Pairwise R ↔ ∀ k, k + 1 < n → R (f k) (f (k + 1)) := by
  have : IsTrans α R := ⟨trans⟩
  rw [← List.isChain_iff_pairwise, List.isChain_iff_getElem]
  simp

theorem strictlyRising_range (x y : Nat → Int) (n : Nat) :
    strictlyRising ((List.range n).map fun k => ⟨x k, y k⟩) = true ↔ ∀ k, k + 1 < n → x k < x (k + 1) :=
  (strictlyRising_iff _).trans (pairwise_map_range (R := fun p q : CurvePoint => p.x < q.x) (fun _ _ _ => lt_trans) _ n)

theorem notFalling_range (x y : Nat → Int) (n : Nat) :
    notFalling ((List.range n).map fun k => ⟨x k, y k⟩) = true ↔ ∀ k, k + 1 < n → y k ≤ y (k + 1) :=
  (notFalling_iff _).trans (pairwise_map_range (R := fun p q : CurvePoint => p.y ≤ q.y) (fun _ _ _ => le_trans) _ n)

theorem readSolubilityCurve_reads :
    let n := (byteAt b 0).toNat
    Reads (readSolubilityCurve b)
      (2 ≤ n ∧ n ≤ 12 ∧ (∀ k, k < n → -2731 ≤ s16 b (1 + 4 * k) ∧ s16 b (1 + 4 * k) ≤ 20000) ∧
        ∀ k, k + 1 < n → s16 b (1 + 4 * k) < s16 b (5 + 4 * k) ∧ u16 b (3 + 4 * k) ≤ u16 b (7 + 4 * k))
      (· = (List.range n).map fun k => ⟨s16 b (1 + 4 * k), u16 b (3 + 4 * k)⟩) := by
  intro n
  have count : u8 b 0 = n := rfl
  have nextX (k : Nat) : 1 + 4 * (k + 1) = 5 + 4 * k := by ring
  have nextY (k : Nat) : 3 + 4 * (k + 1) = 7 + 4 * k := by ring
  unfold readSolubilityCurve
  rw [count, Int.toNat_natCast, readPoints_eq]
  refine .congr ?_ (.ofIte fun _ => rfl)
  simp only [within_iff, strictlyRising_range, notFalling_range, nextX, nextY, List.all_map, List.all_eq_true, List.mem_range,
    Function.comp_apply, Nat.ofNat_le_cast, Nat.cast_le_ofNat, forall_and, and_assoc]

theorem readHeatCurve_reads :
    let n := (byteAt b 0).toNat
    Reads (readHeatCurve b)
      (2 ≤ n ∧ n ≤ 8 ∧ (∀ k, k < n → (-2731 ≤ s16 b (1 + 4 * k) ∧ s16 b (1 + 4 * k) ≤ 20000) ∧
        -2731 ≤ s16 b (3 + 4 * k) ∧ s16 b (3 + 4 * k) ≤ 20000) ∧ ∀ k, k + 1 < n → s16 b (1 + 4 * k) < s16 b (5 + 4 * k))
      (· = (List.range n).map fun k => ⟨s16 b (1 + 4 * k), s16 b (3 + 4 * k)⟩) := by
  intro n
  have count : u8 b 0 = n := rfl
  have nextX (k : Nat) : 1 + 4 * (k + 1) = 5 + 4 * k := by ring
  unfold readHeatCurve
  rw [count, Int.toNat_natCast, readPoints_eq]
  refine .congr ?_ (.ofIte fun _ => rfl)
  simp only [within_iff, strictlyRising_range, nextX, List.all_map, List.all_eq_true, List.mem_range, Function.comp_apply,
    Bool.and_eq_true, Nat.ofNat_le_cast, Nat.cast_le_ofNat, and_assoc]

end curves

/-! ### FAILSAFE (R66) -/

theorem Bank.readAt_zero (b : List Byte) : Bank.readAt b 0 =
    { speeds := Vector.ofFn fun k => u16 b (2 * k.val), heatCeiling := u16 b 32, shift := s16 b 34, bypass := u16 b 36
      direct := Vector.ofFn fun k => u16 b (38 + 2 * k.val) } := by
  simp only [Bank.readAt, Nat.zero_add]

/-- The bank's numbers by their place: the sixteen speeds, the heating ceiling, the shift, the bypass, the eight direct ones. -/
theorem Bank.inRange_readAt (b : List Byte) : (Bank.readAt b 0).inRange = true ↔
    (∀ k, k < 27 → k ≠ 17 → u16 b (2 * k) ≤ 1000) ∧ -200 ≤ s16 b 34 ∧ s16 b 34 ≤ 200 := by
  have parts : (Bank.readAt b 0).inRange = true ↔ (∀ k < 16, u16 b (2 * k) ≤ 1000) ∧ u16 b 32 ≤ 1000 ∧
      (-200 ≤ s16 b 34 ∧ s16 b 34 ≤ 200) ∧ u16 b 36 ≤ 1000 ∧ ∀ k < 8, u16 b (38 + 2 * k) ≤ 1000 := by
    rw [Bank.readAt_zero]
    simp [Bank.inRange, within_iff, u16_nonneg, and_assoc]
  rw [parts]
  constructor
  · rintro ⟨speeds, ceiling, shift, bypass, direct⟩
    refine ⟨fun k below other => ?_, shift⟩
    obtain low | rfl | rfl | high : k < 16 ∨ k = 16 ∨ k = 18 ∨ 19 ≤ k := by omega
    · exact speeds k low
    · exact ceiling
    · exact bypass
    · obtain ⟨j, rfl⟩ := Nat.exists_eq_add_of_le high
      have place : 2 * (19 + j) = 38 + 2 * j := by ring
      rw [place]
      exact direct j (by omega)
  · rintro ⟨targets, shift⟩
    refine ⟨fun k low => targets k (by omega) (by omega), targets 16 (by decide) (by decide), shift, targets 18 (by decide) (by decide),
      fun k low => ?_⟩
    have place : 38 + 2 * k = 2 * (19 + k) := by ring
    rw [place]
    exact targets _ (by omega) (by omega)

theorem readFailsafe_reads (b : List Byte) : Reads (readFailsafe b)
    ((∀ k, k < 27 → k ≠ 17 → u16 b (2 * k) ≤ 1000) ∧ -200 ≤ s16 b 34 ∧ s16 b 34 ≤ 200)
    (· = { speeds := Vector.ofFn fun k => u16 b (2 * k.val), heatCeiling := u16 b 32, shift := s16 b 34, bypass := u16 b 36
           direct := Vector.ofFn fun k => u16 b (38 + 2 * k.val) }) :=
  .congr (Bank.inRange_readAt b) (.ofIte fun _ => Bank.readAt_zero b)

/-! ### CAPTURE (R163) -/

section capture

variable (b : List Byte)

/-- A source of Table 10-2 in the bytes k and k + 1. -/
def sourceAt (k : Nat) : Prop :=
  (u8 b k = 0 ∧ u8 b (k + 1) ≤ 95) ∨ ((u8 b k = 1 ∨ u8 b k = 2) ∧ u8 b (k + 1) ≤ 7) ∨
    ((u8 b k = 3 ∨ u8 b k = 4) ∧ u8 b (k + 1) = 0)

theorem readSources_reads (n i : Nat) : Reads (readSources b i n) (∀ k, k < n → sourceAt b (i + 2 * k))
    fun cs => cs.map CaptureSource.numbers = (List.range n).map fun k => (u8 b (i + 2 * k), u8 b (i + 2 * k + 1)) := by
  induction n generalizing i with
  | zero => exact ⟨fun bad => absurd (fun k h => absurd h (Nat.not_lt_zero k)) bad, fun _ => ⟨[], rfl, rfl⟩⟩
  | succ n ih =>
    have shift (k : Nat) : i + 2 + 2 * k = i + 2 * (k + 1) := by ring
    have read : readSources b i (n + 1) = (CaptureSource.ofCode (u8 b i) (u8 b (i + 1))).bind fun c =>
        (readSources b (i + 2) n).map (c :: ·) := by
      rw [readSources]
      cases CaptureSource.ofCode (u8 b i) (u8 b (i + 1)) <;> cases readSources b (i + 2) n <;> rfl
    have first : Reads (CaptureSource.ofCode (u8 b i) (u8 b (i + 1))) (sourceAt b i) fun c => c.numbers = (u8 b i, u8 b (i + 1)) :=
      .congr (and_iff_right (u8_nonneg b (i + 1))) (CaptureSource.ofCode_reads (u8 b i) (u8 b (i + 1)))
    rw [read]
    refine .congr ?_ (first.bind fun c hc => (ih (i + 2)).map fun cs hcs => ?_)
    · rw [Nat.forall_lt_succ_left]
      simp only [shift]
      rfl
    · rw [List.map_cons, hc, hcs, List.range_succ_eq_map, List.map_cons, List.map_map]
      simp only [shift]
      rfl

theorem CaptureRecord.reads :
    let n := (byteAt b 0).toNat
    Reads (CaptureRecord.read b) (1 ≤ n ∧ n ≤ 16 ∧ 1 ≤ u8 b 1 ∧ u8 b 2 ≤ 3 ∧ ∀ k, k < n → sourceAt b (4 + 2 * k))
      fun c => (c.decimation : Int) = u8 b 1 ∧ c.trigger.code = u8 b 2 ∧ (c.postCount : Int) = u8 b 3 ∧
        c.sources.map CaptureSource.numbers = (List.range n).map fun k => (u8 b (4 + 2 * k), u8 b (5 + 2 * k)) := by
  intro n
  have count : u8 b 0 = n := rfl
  have trigger := u8_nonneg b 2
  have place (k : Nat) : 4 + 2 * k + 1 = 5 + 2 * k := by ring
  refine .congr ?_ ((readSources_reads b n 4).bind fun sources hsources => (Trigger.ofCode_reads (u8 b 2)).bind fun t ht =>
    .ofIte fun _ => ⟨?_, ht, ?_, ?_⟩)
  · rw [within_iff, count]
    constructor
    · rintro ⟨source, code, size, decimation⟩
      exact ⟨by omega, by omega, decimation, code.2, source⟩
    · rintro ⟨low, high, decimation, code, source⟩
      exact ⟨source, ⟨trigger, code⟩, by omega, decimation⟩
  · simp
  · simp
  · simpa only [place] using hsources

end capture

/-! ## TABLE_WRITE (R175) -/

/-- A table and an index are found when the index is in the table's range (Table 11-5). -/
theorem TableRef.find_isSome_iff (t i : Nat) : (TableRef.find t i).isSome = true ↔
    ∃ n, ([some 96, some 64, some 16, some 4, some 8, some 1, some 1, some 1, some 1, some 1, some 16, some 16, some 9, some 1,
      some 1, some 1] : List (Option Nat))[t]? = some (some n) ∧ i < n := by
  rcases Nat.lt_or_ge t 16 with below | above
  · interval_cases t <;> simp [TableRef.find, (index?_reads _ _).isSome_iff]
  · obtain ⟨k, rfl⟩ := Nat.exists_eq_add_of_le' above
    have unknown : TableRef.find (k + 16) i = none := rfl
    simp [unknown]

theorem getD_none_eq_some (sizes : List (Option Nat)) (t n : Nat) : sizes.getD t none = some n ↔ sizes[t]? = some (some n) := by
  rw [List.getD_eq_getElem?_getD, Option.getD_eq_iff]
  simp

/-- A record of the wrong length, by the record bytes of Table 11-5. -/
theorem wrongLength_iff (t : Nat) (b : List Byte) : wrongLength t b = true ↔
    ∃ n, ([some 19, some 9, some 29, none, some 15, none, some 36, some 41, some 15, some 6, some 1, some 1, some 1, some 54,
      some 9, none] : List (Option Nat))[t]? = some (some n) ∧ b.length ≠ n := by
  simp only [← getD_none_eq_some]
  change _ ↔ ∃ n, fixedLength t = some n ∧ b.length ≠ n
  unfold wrongLength
  cases fixedLength t <;> simp

theorem tableWrite_short {p : List Byte} (h : p.length < 2) (s : State) : tableWrite p s = refuse .badLength s := by
  unfold tableWrite
  split
  · simp at h
  · rfl

section write

variable {t i : Nat} {b : List Byte} {s : State}

theorem writeTable_badIndex (h : TableRef.find t i = none) : writeTable t i b s = (.badIndex, s) := by
  simp only [writeTable, h]

/-- A table that is not for CONFIG alone, or a part in CONFIG: check 3 passes. -/
theorem not_wrongMode (allowed : 9 < t ∨ s.mbc.mode = .config) : ¬(configOnly t = true ∧ s.mbc.mode ≠ .config) := by
  rintro ⟨config, mode⟩
  have low : t ≤ 9 := of_decide_eq_true config
  exact allowed.elim (Nat.not_lt.mpr low) mode

variable {ref : TableRef} (found : TableRef.find t i = some ref)
include found

theorem writeTable_wrongMode (config : t ≤ 9) (mode : s.mbc.mode ≠ .config) : writeTable t i b s = (.wrongMode, s) := by
  simp [writeTable, found, configOnly, config, mode]

variable (allowed : 9 < t ∨ s.mbc.mode = .config)
include allowed

theorem writeTable_badLength (h : wrongLength t b = true) : writeTable t i b s = (.badLength, s) := by
  simp only [writeTable, found, if_neg (not_wrongMode allowed), if_pos h]

theorem writeTable_store (h : ¬wrongLength t b = true) : writeTable t i b s = ref.store b s := by
  simp only [writeTable, found, if_neg (not_wrongMode allowed), if_neg h]

end write

/-- A write either takes effect or, refused for one of three reasons, stores nothing (R175). -/
def Stored.AllOrNothing (s : State) (out : Stored) : Prop :=
  (out.1 ≠ .ok → out.2 = s) ∧ (out.1 = .ok ∨ out.1 = .badValue ∨ out.1 = .badLength ∨ out.1 = .wrongState)

theorem storeIf_allOrNothing {α : Type} (r : Option α) (put : α → State) (s : State) : Stored.AllOrNothing s (storeIf r put s) := by
  cases r with
  | none => exact ⟨fun _ => rfl, .inr (.inl rfl)⟩
  | some a => exact ⟨fun h => absurd rfl h, .inl rfl⟩

theorem badLength_allOrNothing (s : State) : Stored.AllOrNothing s (.badLength, s) := ⟨fun _ => rfl, .inr (.inr (.inl rfl))⟩

theorem TableRef.store_allOrNothing (ref : TableRef) (b : List Byte) (s : State) : Stored.AllOrNothing s (ref.store b s) := by
  cases ref with
  | curve i =>
    change Stored.AllOrNothing s (storeCurve i b s)
    unfold storeCurve
    split
    · exact badLength_allOrNothing s
    · exact storeIf_allOrNothing _ _ s
  | heatCurve =>
    change Stored.AllOrNothing s (storeHeatCurve b s)
    unfold storeHeatCurve
    split
    · exact badLength_allOrNothing s
    · exact storeIf_allOrNothing _ _ s
  | capture =>
    change Stored.AllOrNothing s (storeCapture b s)
    unfold storeCapture
    split
    · exact badLength_allOrNothing s
    split
    · exact ⟨fun _ => rfl, .inr (.inr (.inr rfl))⟩
    · exact storeIf_allOrNothing _ _ s
  | _ => exact storeIf_allOrNothing _ _ s

section store

variable {b : List Byte} {s : State}

theorem curveLength_iff : curveLength b = true ↔ b.length = 1 + 4 * (byteAt b 0).toNat := by
  rw [curveLength, decide_eq_true_iff, and_iff_right_iff_imp]
  rintro length rfl
  rw [List.length_nil] at length
  omega

theorem curveLength_bad (h : b = [] ∨ b.length ≠ 1 + 4 * (byteAt b 0).toNat) : (!curveLength b) = true := by
  rw [Bool.not_eq_true', ← Bool.not_eq_true, curveLength_iff]
  rcases h with rfl | length
  · rw [List.length_nil]
    omega
  · exact length

theorem curveLength_good (h : b.length = 1 + 4 * (byteAt b 0).toNat) : ¬(!curveLength b) = true := by
  simp [curveLength_iff.mpr h]

theorem storeCurve_badLength {i : CurveNo} (h : b = [] ∨ b.length ≠ 1 + 4 * (byteAt b 0).toNat) :
    storeCurve i b s = (.badLength, s) := if_pos (curveLength_bad h)

theorem storeCurve_eq (i : CurveNo) (h : b.length = 1 + 4 * (byteAt b 0).toNat) : storeCurve i b s =
    storeIf (readSolubilityCurve b) (fun c => { s with scm := { s.scm with curves := s.scm.curves.set i c } }) s :=
  if_neg (curveLength_good h)

theorem storeHeatCurve_eq (h : b.length = 1 + 4 * (byteAt b 0).toNat) : storeHeatCurve b s =
    storeIf (readHeatCurve b) (fun c => { s with hxu := { s.hxu with curve := c } }) s := if_neg (curveLength_good h)

theorem storeHeatCurve_badLength (h : b = [] ∨ b.length ≠ 1 + 4 * (byteAt b 0).toNat) : storeHeatCurve b s = (.badLength, s) :=
  if_pos (curveLength_bad h)

/-- WELL (R72, R75): UNUSED takes the well's state away, and any other role leaves it STOPPED. -/
theorem storeWell_eq (i : WellNo) (c : WellRecord) (s : State) : storeWell i c s =
    { s with wsv := { s.wsv with wells := s.wsv.wells.set i { s.wsv.wells[i] with
        cfg := c, history := [], state := if c.role.code = 0 then none else some .stopped } } } := by
  have state : c.role.initState = if c.role.code = 0 then none else some .stopped := by cases c.role <;> rfl
  rw [← state]
  rfl

/-- TIMING (R67, R154): the clock's period begins anew with a changed resolution. -/
theorem storeTiming_eq (c : TimingRecord) (s : State) : storeTiming c s = { s with
    mbc := { s.mbc with timing := c }
    clk := { s.clk with period := if c.resolution = s.mbc.timing.resolution then s.clk.period else s.now } } := by
  unfold storeTiming
  split <;> rfl

theorem storeCapture_taken (four : 4 ≤ b.length) (length : b.length = 4 + 2 * (byteAt b 0).toNat) (stopped : s.cap.state = .stopped) :
    storeCapture b s = storeIf (CaptureRecord.read b) (fun r => { s with cap := { s.cap with cfg := r } }) s := by
  rw [storeCapture, if_neg (by omega), if_neg (not_not.mpr stopped)]

theorem storeCapture_wrongState (four : 4 ≤ b.length) (length : b.length = 4 + 2 * (byteAt b 0).toNat)
    (other : s.cap.state ≠ .stopped) : storeCapture b s = (.wrongState, s) := by
  rw [storeCapture, if_neg (by omega), if_pos other]

end store

/-- Settles O50: the checks in their order, the tables by their ids, and each table by what its reader takes. -/
theorem tableWritten : Obligations.TableWritten := by
  refine ⟨fun r s c ready row => ?checks, ?tables, fun ref b s => ref.store_allOrNothing b s, fun b s => ?records⟩
  case checks =>
    have row : exec c s = live s (goodFrame 0x05 tableWrite r) := by rcases row with rfl | rfl | rfl | rfl | rfl <;> rfl
    refine ⟨fun short => exec_replied ready row (tableWrite_short short _), fun t i b payload => ?_⟩
    intro sizes lengths inRange wrong
    have range : (TableRef.find t.toNat i.toNat).isSome = true ↔ inRange := TableRef.find_isSome_iff t.toNat i.toNat
    have length : wrongLength t.toNat b = true ↔ wrong := wrongLength_iff t.toNat b
    have written {out : Stored} (h : writeTable t.toNat i.toNat b s.hears = out) :
        exec c s = .next (replied 0x05 r out.1 [] out.2) := by
      subst h
      exact exec_replied ready row (payload ▸ rfl)
    have found (h : inRange) : ∃ ref, TableRef.find t.toNat i.toNat = some ref := Option.isSome_iff_exists.mp (range.mpr h)
    refine ⟨fun outside => written (writeTable_badIndex (Option.not_isSome_iff_eq_none.mp (mt range.mp outside))),
      fun inside config mode => ?_, fun inside allowed bad => ?_, fun inside allowed good => ?_⟩
    · obtain ⟨ref, h⟩ := found inside
      exact written (writeTable_wrongMode h config mode)
    · obtain ⟨ref, h⟩ := found inside
      exact written (writeTable_badLength h allowed (length.mpr bad))
    · obtain ⟨ref, h⟩ := found inside
      exact ⟨ref, h, written (writeTable_store h allowed (mt length.mp good))⟩
  case tables =>
    have entry {n : Nat} (put : Fin n → TableRef) (i : Fin n) : (index? n (i.val : Int)).map put = some (put i) :=
      congrArg _ (index?_of_lt i.isLt)
    exact ⟨entry .channel, entry .output, entry .well, entry .curve, entry .point, rfl, rfl, rfl, rfl, rfl, entry .permit,
      entry .hold, entry .cls, rfl, rfl, rfl⟩
  case records =>
    intro byte u w z d e channel maybeChannel maybePoint optional temperature
    have hw : w = u16 b := funext fun k => (u16_eq b k).symm
    have hz : z = s16 b := funext fun k => by simp only [z, hw, s16_eq]
    have hd : d = u32 b := funext fun k => by simp only [d, hw, u32_eq]
    have he : e = s32 b := funext fun k => by simp only [e, hd, s32_eq]
    clear_value e z d w
    subst hw hz hd he
    refine ⟨fun i => (ChannelRecord.reads b).stored, fun i => (OutputRecord.reads b).stored, fun i => ?well, fun i => ?curve,
      fun i => (PointRecord.reads b).stored, ?heatCurve, (HeatingRecord.reads b).stored, (TurbineRecord.reads b).stored,
      (PlantRecord.reads b).stored, (LoopRecord.reads b).stored, fun i => ?permitAndHold,
      fun i => ?cls, (readFailsafe_reads b).stored_eq, ?timing, ?capture⟩
    case well =>
      obtain ⟨refused, taken⟩ := (WellRecord.reads b).stored (put := (storeWell i · s)) (s := s)
      refine ⟨refused, fun good => ?_⟩
      obtain ⟨c, stored, role, fields⟩ := taken good
      rw [storeWell_eq, role] at stored
      exact ⟨c, stored, role, fields⟩
    case curve =>
      refine ⟨storeCurve_badLength, fun length => ?_, fun length => ?_⟩
      · exact (storeCurve_eq i length).trans ∘ (readSolubilityCurve_reads b).stored_eq.1
      · exact (storeCurve_eq i length).trans ∘ (readSolubilityCurve_reads b).stored_eq.2
    case heatCurve =>
      refine ⟨storeHeatCurve_badLength, fun length => ?_, fun length => ?_⟩
      · exact (storeHeatCurve_eq length).trans ∘ (readHeatCurve_reads b).stored_eq.1
      · exact (storeHeatCurve_eq length).trans ∘ (readHeatCurve_reads b).stored_eq.2
    case permitAndHold =>
      obtain ⟨permitRefused, permitTaken⟩ := (Permit.reads b).stored_eq (put := fun x => s.setWell i { s.well i with permit := x })
      obtain ⟨holdRefused, holdTaken⟩ := (readFlag_reads b 0).stored_eq (put := fun x => s.setWell i { s.well i with hold := x })
      exact ⟨fun bad => permitRefused (not_le.mpr bad), permitTaken, fun bad => holdRefused (not_le.mpr bad), holdTaken⟩
    case cls =>
      obtain ⟨refused, taken⟩ := (ClassEntry.reads b s.evq.classes[i]).stored_eq (s := s)
        (put := fun x => { s with evq := { s.evq with classes := s.evq.classes.set i x }.judge })
      exact ⟨fun bad => refused (not_le.mpr bad), taken⟩
    case timing =>
      obtain ⟨refused, taken⟩ := (TimingRecord.reads b).stored (put := (storeTiming · s)) (s := s)
      refine ⟨refused, fun good => ?_⟩
      obtain ⟨c, stored, fields⟩ := taken good
      rw [storeTiming_eq] at stored
      exact ⟨c, stored, fields⟩
    case capture =>
      refine ⟨fun bad => if_pos bad, fun four length => storeCapture_wrongState four length, fun four length stopped => ?_,
        fun four length stopped => ?_⟩
      · exact (storeCapture_taken four length stopped).trans ∘ (CaptureRecord.reads b).stored.1
      · intro good
        obtain ⟨c, stored, decimation, trigger, postCount, sources⟩ := (CaptureRecord.reads b).stored.2 good
        exact ⟨c, (storeCapture_taken four length stopped).trans stored, decimation, trigger, postCount, sources⟩

end Sys2Proof.Machine

/-! PROOFS. The step and every command: the front of the queue runs, and each command answers a next state whose queue is the one
it began with. -/

namespace Sys2Proof.Machine

/-- Settles O1: the queue's first command is the branch that the step takes. -/
theorem stepRunsFront : Obligations.StepRunsFront := by
  intro c rest s front
  unfold step
  rw [front]

/-- Every command answers a next state: a good frame by the rule of its kind (R173), and each other row by its own effect. -/
theorem exec_answers (c : Instr) (s : State) : ∃ t, exec c s = .next t := by
  cases hf : c.frame with
  | some p => exact ⟨_, exec_frameRow s hf⟩
  | none =>
    cases c with
    | resetPinLow | powerOnReset | restartEffect | replySent | crcMismatchDiscard | badLenDiscard | framingErrorAbandon | gapAbandon
    | candidateMatch | candidateConfirm | candidateFail | huntIntervalExpiry | searchDwellExpiry | frameJudge | lineSilenceTimeout
    | blindTimerExpiry | outboundScanStart | outboundFrameStart | mbcProcessSnapshot | hostTimerExpiry | wsvProcessSnapshot
    | startTimerExpiry | staggerTimerExpiry | tgdProcessSnapshot | permissiveHoldExpiry | hxuProcessSnapshot | scmProcessSnapshot
    | capProcessSnapshot | clockAdvance => exact ⟨_, rfl⟩
    | _ => exact nomatch hf

/-- No command lists the queue among what it can change; at power-on it stays too (log 27). -/
theorem pending_not_mem_parts (c : Instr) : .pending ∉ Instr.parts c := by
  cases c <;> simp [Instr.parts]

/-- The queue after a command is the queue before it, by the command's frame. -/
theorem exec_pending {c : Instr} {s t : State} (e : exec c s = .next t) : t.pending = s.pending :=
  (exec_frame e).same .pending (pending_not_mem_parts c)

/-- Settles O3: the command answers, and its frame leaves out the queue. -/
theorem everyCommandCompletes : Obligations.EveryCommandCompletes := by
  intro c s
  obtain ⟨t, answered⟩ := exec_answers c s
  exact ⟨t, answered, exec_pending answered⟩

end Sys2Proof.Machine
